-- ==== Sys2Proof/Word.lean ====
section
/-! DEFINITION. The widths of the engine's data (spec rules R3, R5, R34): no behaviour, only names of types. -/

namespace Sys2Proof

/-- A data value, `u64` (R5): bit 0 is the least significant bit. -/
abbrev Word := BitVec 64

/-- A command word (R33). -/
abbrev CmdWord := BitVec 32

/-- The SLOT field of a command word (R34), naming `SLOT[0]` to `SLOT[3]`. -/
abbrev SlotField := BitVec 2

/-- The IDX field of a command word (R34). -/
abbrev IdxField := BitVec 3

end Sys2Proof
end

