-- ==== Sys2Proof/Machine/Ports.lean ====
section
/-! DEFINITION. What crosses the engine's ports (R30, R40): plain data, no behaviour. -/

namespace Sys2Proof.Machine

/-- A command as the command port carries it (R31): the word and both operands. -/
structure Command where
  /-- `cmd_word`. -/
  word : CmdWord
  /-- `cmd_a`, the value to gather or scatter. -/
  a : Word
  /-- `cmd_b`, the mask. -/
  b : Word
  deriving DecidableEq, Repr, Inhabited

/-- The input ports at one rising edge of `clk` (R30). -/
structure Pins where
  /-- `rst_n`, active low. -/
  rstN : Bool
  /-- `cmd_valid`. -/
  cmdValid : Bool
  /-- `cmd_word`, `cmd_a` and `cmd_b`. -/
  cmd : Command
  /-- `rsp_ready`. -/
  rspReady : Bool
  deriving DecidableEq, Repr, Inhabited

/-- The response statuses (R40): code 3 has no name because it is never produced. -/
inductive Status where
  | ok
  | illegal
  | empty
  deriving DecidableEq, Repr

/-- A response (R40). -/
structure Response where
  status : Status
  data : Word
  deriving DecidableEq, Repr

/-- The output ports in one cycle (R30). -/
structure PortsOut where
  /-- `cmd_ready`. -/
  cmdReady : Bool
  /-- `rsp_valid`. -/
  rspValid : Bool
  /-- `rsp_status`. -/
  rspStatus : BitVec 2
  /-- `rsp_data`. -/
  rspData : Word
  deriving DecidableEq, Repr, Inhabited

end Sys2Proof.Machine
end

