-- ==== Sys2Proof/Config.lean ====
section
/-! DEFINITION. The engine's open parameters (R4) and the values the spec leaves open (spec file 93), none of which has
a body: whatever is proved of the model holds for each of their values. -/

namespace Sys2Proof

/-- PREFIX_IMPL (R4): the form of the prefix-XOR unit. -/
inductive PrefixImpl where
  | shiftXor
  | clmul
  deriving DecidableEq, Repr, Inhabited

/-- POPCNT_IMPL (R4): a bit-counting network or a dedicated population-count unit. -/
inductive PopcntImpl where
  | portable
  | native
  deriving DecidableEq, Repr, Inhabited

/-- PREMASK_IMPL (R4): how the low-bits mask is formed. -/
inductive PremaskImpl where
  | select
  | zeroHigh
  deriving DecidableEq, Repr, Inhabited

/-- The parameters an engine is built with (R4). LATENCY and MAX_INFLIGHT are integers of at least 1, so what is
stored is how far each exceeds 1 (assumption log 2). -/
structure Build where
  prefixImpl : PrefixImpl
  popcntImpl : PopcntImpl
  premaskImpl : PremaskImpl
  /-- LATENCY less 1. -/
  latencyExtra : Nat
  /-- MAX_INFLIGHT less 1. -/
  inflightExtra : Nat
  deriving DecidableEq, Repr, Inhabited

/-- LATENCY (R4): cycles from acceptance to the earliest cycle the response may be valid. -/
def Build.latency (b : Build) : Nat := b.latencyExtra + 1

/-- MAX_INFLIGHT (R4): most commands accepted but not yet answered. -/
def Build.maxInflight (b : Build) : Nat := b.inflightExtra + 1

/-- The build of the engine at hand (R4, R83): any values (assumption log 2). -/
opaque Config.build : Build

/-- How many cycles beyond LATENCY the response to the command accepted at an edge takes to become valid: finite,
otherwise free (R32, R96; assumption log 3). -/
opaque Config.responseDelay : Nat → Nat

/-- What the host drives at an edge for which State lists no inputs (R94; assumption log 4). -/
opaque Config.hostPins : Nat → Machine.Pins

/-- `rsp_status` in a cycle with `rsp_valid = 0`: no meaning (R32; assumption log 13). -/
opaque Config.idleStatus : Nat → BitVec 2

/-- `rsp_data` in a cycle with `rsp_valid = 0`: no meaning (R32; assumption log 13). -/
opaque Config.idleData : Nat → Word

/-- The outputs in a cycle before the first reset: unspecified (R91; assumption log 13). -/
opaque Config.powerUpOutputs : Nat → Machine.PortsOut

end Sys2Proof
end

