-- ==== Sys2Proof/Machine/State.lean ====
section
/-! DEFINITION. The engine's state as plain data (spec file 10), the reasons a step can stop, and the state after
reset (R19). -/

namespace Sys2Proof.Machine

/-- A PPP structure (R8): the mask and its six planes. -/
structure PppStruct where
  mask : Word
  planes : Vector Word 6
  deriving DecidableEq, Repr

/-- The PPP slot file (R12): a slot with VALID = 0 is `none`, one with VALID = 1 is `some` structure (R15). -/
abbrev SlotFile := Vector (Option PppStruct) 4

/-- The slot file after reset (R19): no slot is valid. -/
def SlotFile.cleared : SlotFile := #v[none, none, none, none]

/-- A command in flight (R18): its response is fixed at acceptance, and `wait` more edges must pass before the
response may be valid (R32). -/
structure InFlight where
  rsp : Response
  wait : Nat
  deriving DecidableEq, Repr

/-- The state before one rising edge of `clk`. -/
structure State where
  /-- `SLOT[0]` to `SLOT[3]` (R12). -/
  slots : SlotFile
  /-- The in-flight queue, oldest first (R18). -/
  inflight : List InFlight
  /-- Whether a reset has been sampled since power-up (R91, R92). -/
  resetSeen : Bool
  /-- The parameters the engine was built with (R4): no step changes them. -/
  build : Build
  /-- The input ports as the coming edge samples them (R30). -/
  pins : Pins
  /-- The input ports at the edges after that one, as far as they are listed. MODEL's own field. -/
  upcoming : List Pins
  /-- The command the host presented at the last edge without its being accepted (R94). -/
  waiting : Option Command
  /-- How many edges have passed: the index of the free values. MODEL's own field. -/
  tick : Nat
  /-- The run so far: the commands accepted since reset (R95). MODEL's own record. -/
  accepted : List Command
  /-- The responses delivered since reset (R95). MODEL's own record. -/
  delivered : List Response
  deriving DecidableEq, Repr

/-- Why the machine is stuck. -/
inductive Fault where
  /-- Raised by the clock edge when no reset has been sampled since power-up: the engine's state and outputs are
  unspecified there (R91). Safe: the model stops where the hardware goes on. -/
  | beforeFirstReset
  deriving DecidableEq, Repr

/-- Why the machine gives a step no meaning. -/
inductive Refusal where
  /-- Raised by an arm of `exec` for an instruction with no meaning yet. Safe. No arm does. -/
  | notModelled (mnemonic : String)
  /-- Raised by the clock edge when the host withdraws or changes a command it has presented and that was not
  accepted: the spec gives such a host no move (R94, D27). Safe for hosts that keep the handshake. -/
  | handshakeBroken
  deriving DecidableEq, Repr

/-- The input ports of a host that presents no command and takes no response, with reset released. The spec fixes no
input (assumption log 4). -/
def Pins.idle : Pins := ⟨true, false, ⟨0, 0, 0⟩, false⟩

/-- The machine right after reset (R19). The ports, the build and the model's own fields are no part of what R19
fixes: assumption log 2, 4, 8 and 16. -/
def State.reset : State where
  slots := SlotFile.cleared
  inflight := []
  resetSeen := true
  build := Config.build
  pins := Pins.idle
  upcoming := []
  waiting := none
  tick := 0
  accepted := []
  delivered := []

end Sys2Proof.Machine
end

