-- ==== Sys2Proof/Machine/Flags.lean ====
section
/-! DEFINITION. How outcomes are reported. The engine has no flags and no condition codes (R11): there is the status
code of a response (R40) and the VALID bits (R12). -/

namespace Sys2Proof.Machine

/-- The code of a status on `rsp_status` (R40). -/
def statusCode : Status → BitVec 2
  | .ok => 0
  | .illegal => 1
  | .empty => 2

/-- `SLOT[k].VALID` (R12, R15). -/
def slotValid (S : SlotFile) (k : Fin 4) : Bool := S[k].isSome

/-- The VALID field of the INFO word (R75): bit `k` is `SLOT[k].VALID`. -/
def validBits (S : SlotFile) : BitVec 4 :=
  BitVec.ofBool (slotValid S 3) ++ BitVec.ofBool (slotValid S 2) ++ BitVec.ofBool (slotValid S 1)
    ++ BitVec.ofBool (slotValid S 0)

end Sys2Proof.Machine
end

