-- ==== Sys2Proof/Syntax.lean ====
section
/-! DEFINITION. The seven commands of the set PXE-1 (R37), one constructor per row of spec/opcode_table.json.
An instruction holds the fields of the command word; the operands A and B are ports, not part of the word (R35). -/

namespace Sys2Proof

/-- A decoded command word (R37). -/
inductive Instr where
  /-- INFO (R77): the status word. -/
  | info
  /-- PEXT (R59): gather A by the mask B. -/
  | pext
  /-- PDEP (R73): scatter A by the mask B. -/
  | pdep
  /-- PPP (R52): preprocess the mask B into a slot. -/
  | ppp (k : SlotField)
  /-- PEXTP (R60): gather A through a slot. -/
  | pextp (k : SlotField)
  /-- PDEPP (R74): scatter A through a slot. -/
  | pdepp (k : SlotField)
  /-- PPPRD (R53): read word `j` of a slot. -/
  | ppprd (k : SlotField) (j : IdxField)
  deriving DecidableEq, Repr

end Sys2Proof
end

