-- ==== Sys2Proof/Machine/Operands.lean ====
section
/-! DEFINITION. Operand assembly (R35) and which operands a command uses (R36). -/

namespace Sys2Proof.Machine

/-- Operand A, `cmd_a` as given (R35). -/
def operandA (s : State) : Word := s.pins.cmd.a

/-- Operand B, `cmd_b` as given (R35). -/
def operandB (s : State) : Word := s.pins.cmd.b

/-- `k`, the SLOT field as an unsigned integer 0..3 (R35). -/
def slotIndex (k : SlotField) : Fin 4 := k.toFin

/-- `j`, the IDX field as an unsigned integer 0..6 (R35); 7 names no word (R53). -/
def wordIndex (j : IdxField) : Option (Fin 7) := if h : j.toNat < 7 then some ⟨j.toNat, h⟩ else none

/-- Whether a command uses operand A (R36). -/
def usesA : Instr → Bool
  | .info => false
  | .pext => true
  | .pdep => true
  | .ppp _ => false
  | .pextp _ => true
  | .pdepp _ => true
  | .ppprd _ _ => false

/-- Whether a command uses operand B (R36). -/
def usesB : Instr → Bool
  | .info => false
  | .pext => true
  | .pdep => true
  | .ppp _ => true
  | .pextp _ => false
  | .pdepp _ => false
  | .ppprd _ _ => false

end Sys2Proof.Machine
end

