-- ==== Sys2Proof/Machine/Ops.lean ====
section
/-! DEFINITION. The named operations the commands are written with (R7): reading and writing a slot, responding, and
reporting an error. An error is a response like any other: the engine has no trap, saves nothing, redirects nothing
and returns from nothing (R86), so `raiseIllegal` and `raiseEmpty` are all there is of an exception. -/

namespace Sys2Proof.Machine

/-- `SLOT[k]` (R7): `none` where VALID = 0. -/
def readSlot (s : State) (k : SlotField) : Option PppStruct := s.slots[slotIndex k]

/-- `SLOT[k] <- p` with VALID = 1 (R7, R52): all fields at once. -/
def writeSlot (s : State) (k : SlotField) (p : PppStruct) : State :=
  { s with slots := s.slots.set (slotIndex k) (some p) }

/-- How many edges after the next one the response to a command accepted now may first be valid: LATENCY less 1 and
a free delay (R32; assumption log 3). -/
def responseWait (s : State) : Nat := s.build.latencyExtra + Config.responseDelay s.tick

/-- `respond(status, data)` (R7, R31): the response joins the tail of the in-flight queue. -/
def respond (s : State) (status : Status) (data : Word) : State :=
  { s with inflight := s.inflight ++ [⟨⟨status, data⟩, responseWait s⟩] }

/-- `raise ILLEGAL` (R7, R80): the response (ILLEGAL, 0) and no other change. -/
def raiseIllegal (s : State) : State := respond s .illegal 0

/-- `raise EMPTY` (R7, R81): the response (EMPTY, 0) and no other change. -/
def raiseEmpty (s : State) : State := respond s .empty 0

/-- A command that needs a built slot (R81): EMPTY where VALID = 0, else the response (OK, `f` of the structure). -/
def respondFromSlot (s : State) (k : SlotField) (f : PppStruct → Word) : State :=
  match readSlot s k with
  | none => raiseEmpty s
  | some p => respond s .ok (f p)

/-- The six stages in ascending order (R3): stage `i` shifts by `2^i`. -/
def stages : List (Fin 6) := [0, 1, 2, 3, 4, 5]

/-- The shift amount of a stage (R3): 1, 2, 4, 8, 16, 32. -/
def shiftAmount (i : Fin 6) : Nat := 2 ^ i.val

/-- The same outcome with its next state changed by `f`. -/
def mapNext (f : State → State) : Host.Outcome State Fault Refusal → Host.Outcome State Fault Refusal
  | .next s => .next (f s)
  | .fault r => .fault r
  | .refused r => .refused r

end Sys2Proof.Machine
end

