-- ==== Sys2Proof/Machine/Control.lean ====
section
/-! DEFINITION. The INFO word and the command INFO (spec file 44). -/

namespace Sys2Proof.Machine

/-- INFO bit 8 (R75). -/
def prefixBit : PrefixImpl → BitVec 1
  | .shiftXor => 0
  | .clmul => 1

/-- INFO bit 9 (R75). -/
def popcntBit : PopcntImpl → BitVec 1
  | .portable => 0
  | .native => 1

/-- INFO bit 10 (R75). -/
def premaskBit : PremaskImpl → BitVec 1
  | .select => 0
  | .zeroHigh => 1

/-- `INFO_WORD` (R75): its fields from bit 63 down, VERSION 1 and NSLOTS 4 among them. -/
def infoWord (b : Build) (S : SlotFile) : Word :=
  0#32 ++ 1#8 ++ 4#8 ++ 0#5 ++ premaskBit b.premaskImpl ++ popcntBit b.popcntImpl ++ prefixBit b.prefixImpl
    ++ 0#4 ++ validBits S

/-- INFO (R77). -/
def execInfo (s : State) : Host.Outcome State Fault Refusal :=
  .next (respond s .ok (infoWord s.build s.slots))

end Sys2Proof.Machine
end

