-- ==== Sys2Proof/Machine/Preprocess.lean ====
section
/-! DEFINITION. The mask preprocessor and the prefix-XOR unit (spec file 41), and the commands PPP and PPPRD. -/

namespace Sys2Proof.Machine

/-- `PREFIX_XOR` (R43): six shift-and-XOR steps. -/
def prefixXor (x : Word) : Word := stages.foldl (fun x i => x ^^^ (x <<< shiftAmount i)) x

/-- `CLMUL_LO` (R44): the low 64 bits of the product over GF(2). -/
def clmulLo (a c : Word) : Word :=
  (List.range 64).foldl (fun r j => if c.getLsbD j then r ^^^ (a <<< j) else r) 0

/-- The multiplier of the carry-less form, the pattern of -2 (R45). -/
def minusTwo : Word := 0xFFFFFFFFFFFFFFFE

/-- `PXS` as the unit of either form computes it (R45). -/
def pxsBy (impl : PrefixImpl) (x : Word) : Word :=
  match impl with
  | .shiftXor => prefixXor x <<< 1
  | .clmul => clmulLo x minusTwo

/-- `PXS` (R45): one function whatever the form of the unit, so the commands do not look at PREFIX_IMPL (R46;
assumption log 9). -/
def pxs (x : Word) : Word := pxsBy .shiftXor x

/-- The `u` that iteration `i` of `PPP` reads (R47, R49), over a prefix-XOR unit `px`. -/
def pppCarryWith (px : Word → Word) (mask : Word) : Nat → Word
  | 0 => ~~~mask
  | i + 1 => pppCarryWith px mask i &&& px (pppCarryWith px mask i)

/-- Plane `i` of `PPP` (R47): binary digit `i` of the running count. -/
def pppPlaneWith (px : Word → Word) (mask : Word) (i : Nat) : Word := px (pppCarryWith px mask i)

/-- `PPP` (R47) over a prefix-XOR unit. -/
def pppWith (px : Word → Word) (mask : Word) : PppStruct where
  mask := mask
  planes := #v[pppPlaneWith px mask 0, pppPlaneWith px mask 1, pppPlaneWith px mask 2,
    pppPlaneWith px mask 3, pppPlaneWith px mask 4, pppPlaneWith px mask 5]

/-- The `u` that iteration `i` of `PPP` reads (R49). -/
def pppCarry (mask : Word) (i : Nat) : Word := pppCarryWith pxs mask i

/-- `PPP` (R47). -/
def ppp (mask : Word) : PppStruct := pppWith pxs mask

/-- `WORD(s, j)` (R53): the mask, then the six planes. -/
def pppWord (p : PppStruct) (j : Fin 7) : Word :=
  if h : j.val = 0 then p.mask else p.planes[j.val - 1]

/-- PPP (R52). -/
def execPpp (k : SlotField) (s : State) : Host.Outcome State Fault Refusal :=
  .next (respond (writeSlot s k (ppp (operandB s))) .ok 0)

/-- PPPRD (R53): ILLEGAL for the index 7, checked before the slot (R84), then EMPTY, then the word. -/
def execPpprd (k : SlotField) (j : IdxField) (s : State) : Host.Outcome State Fault Refusal :=
  match wordIndex j with
  | none => .next (raiseIllegal s)
  | some r => .next (respondFromSlot s k (fun p => pppWord p r))

end Sys2Proof.Machine
end

