-- ==== Sys2Proof/Machine/Gather.lean ====
section
/-! DEFINITION. The gather engine (spec file 42), and the commands PEXT and PEXTP. -/

namespace Sys2Proof.Machine

/-- The bits that stay at stage `i` of gather (R54): those where plane `i` is 0. -/
def gatherStay (p : PppStruct) (a : Word) (i : Fin 6) : Word := a &&& ~~~p.planes[i]

/-- The bits that move at stage `i` of gather, where they land (R54): `2^i` lower. -/
def gatherMove (p : PppStruct) (a : Word) (i : Fin 6) : Word := (a &&& p.planes[i]) >>> shiftAmount i

/-- One stage of gather (R54). -/
def gatherStage (p : PppStruct) (a : Word) (i : Fin 6) : Word := gatherStay p a i ||| gatherMove p a i

/-- The running value of gather after the pre-mask and the stages of a list (R54, R55). -/
def gatherRun (p : PppStruct) (a : Word) (is : List (Fin 6)) : Word := is.foldl (gatherStage p) (a &&& p.mask)

/-- `GATHER` (R54): the pre-mask, then the six stages in ascending order (R55). -/
def gather (a : Word) (p : PppStruct) : Word := gatherRun p a stages

/-- PEXT (R59). -/
def execPext (s : State) : Host.Outcome State Fault Refusal :=
  .next (respond s .ok (gather (operandA s) (ppp (operandB s))))

/-- PEXTP (R60). -/
def execPextp (k : SlotField) (s : State) : Host.Outcome State Fault Refusal :=
  .next (respondFromSlot s k (gather (operandA s)))

end Sys2Proof.Machine
end

