-- ==== Sys2Proof/Machine/Scatter.lean ====
section
/-! DEFINITION. Population count, the low-bits mask and the scatter engine (spec file 43), and the commands PDEP and
PDEPP. -/

namespace Sys2Proof.Machine

/-- The number of set bits among the `2^n` positions from `lo` on, 7 bits wide: the sum over the two halves. -/
def onesFrom (x : Word) : Nat → Nat → BitVec 7
  | 0, lo => if x.getLsbD lo then 1 else 0
  | n + 1, lo => onesFrom x n lo + onesFrom x n (lo + 2 ^ n)

/-- `POPCOUNT` (R61), 7 bits wide: the number of set bits among the 64 positions. -/
def popcount (x : Word) : BitVec 7 := onesFrom x 6 0

/-- `LOWMASK(p)` (R63), with the case `p = 64` told apart; a count above 64 does not occur (assumption log 12). -/
def lowMask (p : BitVec 7) : Word := if p = 64 then 0xFFFFFFFFFFFFFFFF else (1 <<< p.toNat) - 1

/-- `ZERO_HIGH(a, p)` (R64): the bits of `a` below `p` kept, the others cleared. -/
def zeroHigh (a : Word) (p : BitVec 7) : Word := BitVec.ofNat 64 (a.toNat % 2 ^ p.toNat)

/-- The pre-mask as either form of the unit computes it (R64). -/
def premaskBy (impl : PremaskImpl) (a : Word) (p : BitVec 7) : Word :=
  match impl with
  | .select => a &&& lowMask p
  | .zeroHigh => zeroHigh a p

/-- The pre-mask of scatter (R66): no result depends on PREMASK_IMPL (R64; assumption log 9). -/
def premask (a : Word) (p : BitVec 7) : Word := premaskBy .select a p

/-- `bit` of stage `i` of scatter (R66, R68): the plane shifted back. -/
def scatterBits (p : PppStruct) (i : Fin 6) : Word := p.planes[i] >>> shiftAmount i

/-- The bits that stay at stage `i` of scatter (R66). -/
def scatterStay (p : PppStruct) (a : Word) (i : Fin 6) : Word := a &&& ~~~scatterBits p i

/-- The bits that move at stage `i` of scatter, where they land (R66): `2^i` higher. -/
def scatterMove (p : PppStruct) (a : Word) (i : Fin 6) : Word := (a &&& scatterBits p i) <<< shiftAmount i

/-- One stage of scatter (R66), an addition modulo 2^64. -/
def scatterStage (p : PppStruct) (a : Word) (i : Fin 6) : Word := scatterStay p a i + scatterMove p a i

/-- The running value of scatter after the pre-mask and the stages of a list (R66, R67). -/
def scatterRun (p : PppStruct) (a : Word) (is : List (Fin 6)) : Word :=
  is.foldl (scatterStage p) (premask a (popcount p.mask))

/-- `SCATTER` (R66): the pre-mask to the low `popcount` bits, then the six stages in descending order (R67). -/
def scatter (a : Word) (p : PppStruct) : Word := scatterRun p a stages.reverse

/-- PDEP (R73). -/
def execPdep (s : State) : Host.Outcome State Fault Refusal :=
  .next (respond s .ok (scatter (operandA s) (ppp (operandB s))))

/-- PDEPP (R74): the count is taken of the slot's mask (C5). -/
def execPdepp (k : SlotField) (s : State) : Host.Outcome State Fault Refusal :=
  .next (respondFromSlot s k (scatter (operandA s)))

end Sys2Proof.Machine
end

