-- ==== Sys2Proof/Machine/Dispatch.lean ====
section
/-! DEFINITION. The meaning of each command (R41), one arm per constructor. -/

namespace Sys2Proof.Machine

def exec (i : Instr) (s : State) : Host.Outcome State Fault Refusal :=
  match i with
  | .info => Sys2Proof.Machine.execInfo s
  | .pext => Sys2Proof.Machine.execPext s
  | .pdep => Sys2Proof.Machine.execPdep s
  | .ppp k => Sys2Proof.Machine.execPpp k s
  | .pextp k => Sys2Proof.Machine.execPextp k s
  | .pdepp k => Sys2Proof.Machine.execPdepp k s
  | .ppprd k j => Sys2Proof.Machine.execPpprd k j s

end Sys2Proof.Machine
end

