-- ==== Sys2Proof/Machine/Handshake.lean ====
section
/-! DEFINITION. The two ports' handshakes, the queue's delivery and reset (R30 to R32, R89 to R94): everything that
happens at a rising edge of `clk` beside the command itself. -/

namespace Sys2Proof.Machine

/-- Whether a list has fewer than `n` entries. -/
def fewerThan {α : Type} : List α → Nat → Bool
  | _, 0 => false
  | [], _ + 1 => true
  | _ :: q, n + 1 => fewerThan q n

/-- `cmd_ready` (R31): reset is released and fewer than MAX_INFLIGHT commands are in flight as the cycle starts. -/
def cmdReady (s : State) : Bool := s.pins.rstN && fewerThan s.inflight s.build.maxInflight

/-- Whether the head of the queue has waited long enough (R32). -/
def headDue (q : List InFlight) : Bool :=
  match q with
  | [] => false
  | e :: _ => e.wait == 0

/-- `rsp_valid` (R32, R89). -/
def rspValid (s : State) : Bool := s.pins.rstN && headDue s.inflight

/-- The response on the response port while `rsp_valid = 1` (R32). -/
def rspPort (s : State) : Option Response := if rspValid s then s.inflight.head?.map (·.rsp) else none

/-- The output ports (R30): free values where the spec gives them no meaning (R32, R91). -/
def outputs (s : State) : PortsOut :=
  if s.resetSeen then
    match rspPort s with
    | some r => ⟨cmdReady s, true, statusCode r.status, r.data⟩
    | none => ⟨cmdReady s, false, Config.idleStatus s.tick, Config.idleData s.tick⟩
  else Config.powerUpOutputs s.tick

/-- The response delivered at this edge, if any (R32): `rsp_valid = 1` and `rsp_ready = 1`. -/
def deliveredNow (s : State) : List Response := if s.pins.rspReady then (rspPort s).toList else []

/-- Delivery (R32): the head leaves the queue and joins the run's responses. -/
def deliver (s : State) : State :=
  { s with
    inflight := s.inflight.drop (deliveredNow s).length
    delivered := s.delivered ++ deliveredNow s }

/-- One edge less to wait (R32). -/
def InFlight.aged (e : InFlight) : InFlight := ⟨e.rsp, e.wait - 1⟩

/-- What the edge does to the commands already in flight: delivery, and one edge less to wait for those that stay. -/
def serveQueue (s : State) : State :=
  let t := deliver s
  { t with inflight := t.inflight.map InFlight.aged }

/-- The command the host presents and the engine does not accept at this edge, if any (R94). -/
def heldCommand (s : State) : Option Command := if s.pins.cmdValid then some s.pins.cmd else none

/-- The host withdrew or changed a command it had presented and that was not accepted (R94, D27). -/
def handshakeBroken (s : State) : Bool :=
  match s.waiting with
  | none => false
  | some c => !(s.pins.cmdValid && s.pins.cmd == c)

/-- A command is accepted at this edge (R31). -/
def accepting (s : State) : Bool := s.pins.cmdValid && cmdReady s

/-- The edge is over: the ports move to what the host drives next, listed or free (R94; assumption log 4). -/
def advance (s : State) : State :=
  { s with
    pins := s.upcoming.headD (Config.hostPins s.tick)
    upcoming := s.upcoming.tail
    tick := s.tick + 1 }

/-- The end of an edge that accepted a command: it joins the run (R31, R95). -/
def finishAccept (s : State) : State :=
  advance { s with waiting := none, accepted := s.accepted ++ [s.pins.cmd] }

/-- The end of an edge that accepted none: the host must hold what it presents (R94). -/
def finishIdle (s : State) : State := advance { s with waiting := heldCommand s }

/-- An edge with `rst_n = 0` (R89, R90): the post-reset state, whatever else the ports say. -/
def resetEdge (s : State) : State :=
  advance
    { s with
      slots := SlotFile.cleared
      inflight := []
      resetSeen := true
      waiting := heldCommand s
      accepted := []
      delivered := [] }

/-- The queue as `withFetchWord` needs it: as it is where a command can be accepted, else empty. -/
def roomyQueue (s : State) : List InFlight :=
  if fewerThan s.inflight s.build.maxInflight then s.inflight else []

end Sys2Proof.Machine
end

