-- ==== Sys2Proof/WellFormed.lean ====
section
/-! DEFINITION. Which instructions a command word can stand for (R34, R37): the one check is PPPRD's index. -/

namespace Sys2Proof

/-- The IDX operand of PPPRD is 0..6: a PPP structure has seven words, and 7 is ILLEGAL (R37, R53). -/
def idxNamesWord (j : IdxField) : Bool := j != 7#3

/-- An instruction that some command word decodes to (R38). -/
def Instr.wellFormed : Instr → Bool
  | .info => true
  | .pext => true
  | .pdep => true
  | .ppp _ => true
  | .pextp _ => true
  | .pdepp _ => true
  | .ppprd _ j => idxNamesWord j

end Sys2Proof
end

