-- ==== Sys2Proof/Decode.lean ====
section
/-! DEFINITION. Decoding a command word (R38), the encoder (R34, R37), and the assembler (R42). -/

namespace Sys2Proof

/-- Why a command word does not decode (R39, R80). All of them complete with status ILLEGAL. -/
inductive Illegal where
  /-- The RSVD field is not 0. -/
  | reservedBits
  /-- OP is 0x7 to 0xF. -/
  | reservedOp
  /-- SLOT is not 0 for INFO, PEXT or PDEP. -/
  | slotNotZero
  /-- IDX is not 0 for a command other than PPPRD. -/
  | idxNotZero
  /-- IDX is 7 for PPPRD. -/
  | idxSeven
  deriving DecidableEq, Repr

/-- The OP field (R34). -/
def opField (w : CmdWord) : BitVec 4 := w.extractLsb' 0 4

/-- The SLOT field (R34). -/
def slotField (w : CmdWord) : SlotField := w.extractLsb' 4 2

/-- The IDX field (R34). -/
def idxField (w : CmdWord) : IdxField := w.extractLsb' 6 3

/-- The RSVD field (R34). -/
def rsvdField (w : CmdWord) : BitVec 23 := w.extractLsb' 9 23

/-- A command with neither SLOT nor IDX: both must be 0 (R38). -/
def decodePlain (i : Instr) (k : SlotField) (j : IdxField) : Except Illegal Instr :=
  if k ≠ 0 then .error .slotNotZero else if j ≠ 0 then .error .idxNotZero else .ok i

/-- A command with a SLOT operand and no IDX: IDX must be 0 (R38). -/
def decodeSlot (i : Instr) (j : IdxField) : Except Illegal Instr :=
  if j ≠ 0 then .error .idxNotZero else .ok i

/-- PPPRD: every slot, IDX 0..6 (R38). -/
def decodeRead (k : SlotField) (j : IdxField) : Except Illegal Instr :=
  if idxNamesWord j then .ok (.ppprd k j) else .error .idxSeven

/-- The case table of `DECODE` over OP (R37, R38), once RSVD is known to be 0. -/
def decodeOp (op : BitVec 4) (k : SlotField) (j : IdxField) : Except Illegal Instr :=
  if op = 0x0 then decodePlain .info k j
  else if op = 0x1 then decodePlain .pext k j
  else if op = 0x2 then decodePlain .pdep k j
  else if op = 0x3 then decodeSlot (.ppp k) j
  else if op = 0x4 then decodeSlot (.pextp k) j
  else if op = 0x5 then decodeSlot (.pdepp k) j
  else if op = 0x6 then decodeRead k j
  else .error .reservedOp

/-- `DECODE` (R38), total on all 2^32 command words. -/
def decode (w : CmdWord) : Except Illegal Instr :=
  if rsvdField w ≠ 0 then .error .reservedBits
  else decodeOp (opField w) (slotField w) (idxField w)

/-- The OP code of a command (R37). -/
def Instr.opcode : Instr → BitVec 4
  | .info => 0x0
  | .pext => 0x1
  | .pdep => 0x2
  | .ppp _ => 0x3
  | .pextp _ => 0x4
  | .pdepp _ => 0x5
  | .ppprd _ _ => 0x6

/-- What a command's SLOT field holds: its slot, or 0 where it names none (R34). -/
def Instr.slotOperand : Instr → SlotField
  | .info => 0
  | .pext => 0
  | .pdep => 0
  | .ppp k => k
  | .pextp k => k
  | .pdepp k => k
  | .ppprd k _ => k

/-- What a command's IDX field holds: PPPRD's index, and 0 for every other command (R34). -/
def Instr.idxOperand : Instr → IdxField
  | .info => 0
  | .pext => 0
  | .pdep => 0
  | .ppp _ => 0
  | .pextp _ => 0
  | .pdepp _ => 0
  | .ppprd _ j => j

/-- The command word of an instruction: RSVD, IDX, SLOT, OP from bit 31 down (R34). -/
def encode (i : Instr) : CmdWord := 0#23 ++ i.idxOperand ++ i.slotOperand ++ i.opcode

/-- The instruction the decoder reads from a row of spec/opcode_table.json whose bits are `w`: the table's number IS
the command word, one 32-bit word with bit 0 least significant (R5, R33). Bits at and above `nbits` are 0. -/
def decodeTableWord (nbits w : Nat) : Option Instr :=
  if w % 2 ^ nbits < 2 ^ 32 then (decode (BitVec.ofNat 32 (w % 2 ^ nbits))).toOption else none

/-- A line of assembly (R42), its operands written out: `m` a mask, `a` a value, `k` a slot, `j` an index 0..6,
`i` a plane 0..5. The last two constructors are the pseudo-instructions. -/
inductive AsmLine where
  | info
  | pext (a m : Word)
  | pdep (a m : Word)
  | ppp (k : SlotField) (m : Word)
  | pextp (k : SlotField) (a : Word)
  | pdepp (k : SlotField) (a : Word)
  | ppprd (k : SlotField) (j : Fin 7)
  /-- `PPPRD s<k>, MASK`. -/
  | ppprdMask (k : SlotField)
  /-- `PPPRD s<k>, P<i>`. -/
  | ppprdPlane (k : SlotField) (i : Fin 6)
  deriving DecidableEq, Repr

/-- The command a line of assembly stands for (R42); the assembler drives 0 on an unused operand port. -/
def assemble : AsmLine → Machine.Command
  | .info => ⟨encode .info, 0, 0⟩
  | .pext a m => ⟨encode .pext, a, m⟩
  | .pdep a m => ⟨encode .pdep, a, m⟩
  | .ppp k m => ⟨encode (.ppp k), 0, m⟩
  | .pextp k a => ⟨encode (.pextp k), a, 0⟩
  | .pdepp k a => ⟨encode (.pdepp k), a, 0⟩
  | .ppprd k j => ⟨encode (.ppprd k (BitVec.ofNat 3 j.val)), 0, 0⟩
  | .ppprdMask k => ⟨encode (.ppprd k 0), 0, 0⟩
  | .ppprdPlane k i => ⟨encode (.ppprd k (BitVec.ofNat 3 (i.val + 1))), 0, 0⟩

end Sys2Proof
end

