-- ==== Sys2Proof/Machine/Reference.lean ====
section
/-! DEFINITION. `EXEC` as R41 writes it, a function of the slot file and one command, and a run of it over a sequence
of commands (R26). The machine does not call these: they are what its steps are held against. -/

namespace Sys2Proof.Machine

/-- A command that reads a slot (R41, R81), as R41 writes it. -/
def execOnSlot (S : SlotFile) (k : SlotField) (f : PppStruct → Word) : SlotFile × Response :=
  match S[slotIndex k] with
  | none => (S, ⟨.empty, 0⟩)
  | some p => (S, ⟨.ok, f p⟩)

/-- The case table of `EXEC` (R41) over a decoded command. The build appears in the INFO word only (R76). -/
def execDecoded (b : Build) (S : SlotFile) (A B : Word) : Instr → SlotFile × Response
  | .info => (S, ⟨.ok, infoWord b S⟩)
  | .pext => (S, ⟨.ok, gather A (ppp B)⟩)
  | .pdep => (S, ⟨.ok, scatter A (ppp B)⟩)
  | .ppp k => (S.set (slotIndex k) (some (ppp B)), ⟨.ok, 0⟩)
  | .pextp k => execOnSlot S k (gather A)
  | .pdepp k => execOnSlot S k (scatter A)
  | .ppprd k j =>
    match wordIndex j with
    | none => (S, ⟨.illegal, 0⟩)
    | some r => execOnSlot S k (fun p => pppWord p r)

/-- `EXEC` (R41): the command of the word, or ILLEGAL where `DECODE` gives none (R80). -/
def execCommand (b : Build) (S : SlotFile) (c : Command) : SlotFile × Response :=
  match decode c.word with
  | .error _ => (S, ⟨.illegal, 0⟩)
  | .ok i => execDecoded b S c.a c.b i

/-- One more command of a run: the slot file after it, and its response at the end of the responses (R26). -/
def runStep (b : Build) (r : SlotFile × List Response) (c : Command) : SlotFile × List Response :=
  let q := execCommand b r.1 c
  (q.1, r.2 ++ [q.2])

/-- The run of a sequence of commands from the post-reset state (R26): response `j` is that of command `j` in the
state that the commands before it leave. -/
def runCommands (b : Build) (cs : List Command) : SlotFile × List Response :=
  cs.foldl (runStep b) (SlotFile.cleared, [])

end Sys2Proof.Machine
end

