-- ==== Sys2Proof/Machine/Edge.lean ====
section
/-! DEFINITION. One rising edge of `clk`: reset, a stop, an accepted command, or none. -/

namespace Sys2Proof.Machine

/-- The command on the port executes (R31, R38, R41): a word that does not decode completes with ILLEGAL (R80). -/
def runPort (s : State) : Host.Outcome State Fault Refusal :=
  match decode s.pins.cmd.word with
  | .ok i => exec i s
  | .error _ => .next (raiseIllegal s)

/-- One rising edge of `clk` (R30). Reset comes first (R89: "at every such edge"); then an engine never reset is stuck
(R91) and a host that breaks the handshake has no move (R94, D27); then the queue is served, and the command on the
port, if it is accepted, executes as one indivisible step (R23, R31). -/
def clockEdge (s : State) : Host.Outcome State Fault Refusal :=
  if s.pins.rstN then
    if s.resetSeen then
      if handshakeBroken s then .refused .handshakeBroken
      else if accepting s then mapNext finishAccept (runPort (serveQueue s))
      else .next (finishIdle (serveQueue s))
    else .fault .beforeFirstReset
  else .next (resetEdge s)

end Sys2Proof.Machine
end

