-- ==== Sys2Proof/Machine/Step.lean ====
section
/-! DEFINITION. The step, and how the host's check places a command before it. -/

namespace Sys2Proof.Machine

/-- One step of the machine: one rising edge of `clk`. -/
def step (s : State) : Host.Outcome State Fault Refusal := clockEdge s

/-- `s` with a command word on the command port, so that the next step accepts and runs it (assumption log 10): the
word and `cmd_valid = 1` and `rst_n = 1` on the ports, no earlier command being held, the first reset past, and room
in the queue. The operands `cmd_a`, `cmd_b` and `rsp_ready` stay. -/
def State.withFetchWord (s : State) (nbits w : Nat) : State :=
  { s with
    pins := { s.pins with
      rstN := true
      cmdValid := true
      cmd := { s.pins.cmd with word := BitVec.ofNat 32 (w % 2 ^ nbits) } }
    waiting := none
    resetSeen := true
    inflight := roomyQueue s }

end Sys2Proof.Machine
end

