-- ==== Sys2Proof/Machine/Counts.lean ====
section
/-! DEFINITION. The counts and positions the spec's rules speak of (R43, R48, R57, R61), as plain lists and numbers:
no command computes with them, the claims do. -/

namespace Sys2Proof.Machine

/-- `x[0] ^ ... ^ x[b-1]`, the XOR of the bits strictly below `b` (R45). -/
def xorBelow (x : Word) (b : Nat) : Bool := (List.range b).foldl (fun acc k => acc ^^ x.getLsbD k) false

/-- `ZB(mask, b)` (R48): how many positions below `b` have mask bit 0. -/
def zerosBelow (mask : Word) (b : Nat) : Nat := (List.range b).countP (fun k => !mask.getLsbD k)

/-- The positions where `m` is 1, ascending: `b_0 < b_1 < ... < b_{p-1}` (R57). -/
def setPositions (m : Word) : List Nat := (List.range 64).filter (fun k => m.getLsbD k)

/-- The number of set bits of `x` (R61), an integer 0..64. -/
def onesCount (x : Word) : Nat := (List.range 64).countP (fun k => x.getLsbD k)

end Sys2Proof.Machine
end

