-- ==== Sys2Proof/Safety.lean ====
section
/-! DEFINITION. What a good state and a good run are, in the terms the claims use. -/

namespace Sys2Proof.Machine

/-- R13: every valid slot holds the PPP structure of its own mask. -/
def SlotsCoherent (S : SlotFile) : Prop := ∀ (k : Fin 4) (p : PppStruct), S[k] = some p → p = ppp p.mask

/-- The responses of the run in acceptance order: those delivered, then those in flight (R18, R26). -/
def responsesOf (s : State) : List Response := s.delivered ++ s.inflight.map (·.rsp)

/-- R26: the responses and the slot file are those of the accepted commands, executed one after the other. -/
def InOrder (s : State) : Prop := runCommands s.build s.accepted = (s.slots, responsesOf s)

/-- R18: at most MAX_INFLIGHT commands are in flight. -/
def QueueBounded (s : State) : Prop := s.inflight.length ≤ s.build.maxInflight

/-- The invariant of the machine: once the engine has been reset, its queue is bounded (R18) and its run is the
sequential run of the accepted commands (R26). -/
structure State.Inv (s : State) : Prop where
  resetSeen : s.resetSeen = true
  bounded : QueueBounded s
  inOrder : InOrder s

/-- The post-reset state (R19), under any build, at any edge, whatever the host drives and whatever it presented. -/
structure PostReset (s : State) : Prop where
  slots : s.slots = SlotFile.cleared
  inflight : s.inflight = []
  resetSeen : s.resetSeen = true
  accepted : s.accepted = []
  delivered : s.delivered = []

/-- An edge at which the engine runs: reset is released, an earlier reset was sampled (R92), and the host keeps the
handshake (R94). -/
structure Running (s : State) : Prop where
  released : s.pins.rstN = true
  resetSeen : s.resetSeen = true
  handshake : handshakeBroken s = false

/-- The outcome `o` of a command at `s`: a next state in which the slot file is `S`, the response `r` has joined the
tail of the queue with the wait that R32 gives it, and EVERYTHING ELSE is as in `s`. -/
def CompletesWith (o : Host.Outcome State Fault Refusal) (s : State) (S : SlotFile) (r : Response) : Prop :=
  o = .next { s with slots := S, inflight := s.inflight ++ [⟨r, responseWait s⟩] }

/-- `s` with another value on `cmd_a`. -/
def withA (s : State) (v : Word) : State := { s with pins := { s.pins with cmd := { s.pins.cmd with a := v } } }

/-- `s` with another value on `cmd_b`. -/
def withB (s : State) (v : Word) : State := { s with pins := { s.pins with cmd := { s.pins.cmd with b := v } } }

/-- `s` with another slot file. -/
def withSlots (s : State) (S : SlotFile) : State := { s with slots := S }

/-- `s` on an engine of another build. -/
def withBuild (s : State) (b : Build) : State := { s with build := b }

/-- The run is complete (R95): every accepted command's response has been delivered. -/
def RunComplete (s : State) : Prop := s.inflight = []

end Sys2Proof.Machine
end

