-- ==== Sys2Proof/Certificates/Slice0/Obligations.lean ====
section
/-! DEFINITION. The statements for the provers, each with the rules of the spec it formalises. -/

open Sys2Proof Sys2Proof.Machine

/-! ## Encoding -/

/-- R34, R37, R38: decoding the word of a well-formed instruction gives the instruction back, whatever its operands. -/
def Obligations.DecodeUndoesEncode : Prop :=
  ∀ i : Instr, i.wellFormed = true → decode (encode i) = .ok i

/-- R38: a word that decodes is the word of the instruction it decodes to, and that instruction is well-formed. -/
def Obligations.DecodedWordIsItsEncoding : Prop :=
  ∀ (w : CmdWord) (i : Instr), decode w = .ok i → encode i = w ∧ i.wellFormed = true

/-- R38: exactly 43 of the 2^32 command words decode to a command. -/
def Obligations.FortyThreeWordsDecode : Prop :=
  Set.ncard { w : CmdWord | ∃ i, decode w = .ok i } = 43

/-- Words of spec 30 R42 and spec 95 section 2.7, written out bit by bit, decode to the commands they stand for. -/
def Obligations.SampleWordsDecode : Prop :=
  decode 0b00000000000000000000000000000000 = .ok .info ∧
  decode 0b00000000000000000000000000000001 = .ok .pext ∧
  decode 0b00000000000000000000000000000010 = .ok .pdep ∧
  decode 0b00000000000000000000000000110011 = .ok (.ppp 3) ∧
  decode 0b00000000000000000000000000010100 = .ok (.pextp 1) ∧
  decode 0b00000000000000000000000000110101 = .ok (.pdepp 3) ∧
  decode 0b00000000000000000000000110010110 = .ok (.ppprd 1 6) ∧
  decode 0b00000000000000000000000111110110 = .error .idxSeven ∧
  decode 0b10000000000000000000000000000001 = .error .reservedBits

/-- R42: every line of assembly becomes the command word of its formula, with its operands on the ports the table
gives and 0 on an unused port; `MASK` is index 0 and `P<i>` is index i + 1. -/
def Obligations.AssemblyMeansTheseCommands : Prop :=
  assemble .info = ⟨0x0, 0, 0⟩ ∧
  (∀ a m, assemble (.pext a m) = ⟨0x1, a, m⟩) ∧
  (∀ a m, assemble (.pdep a m) = ⟨0x2, a, m⟩) ∧
  (∀ k m, assemble (.ppp k m) = ⟨0x3 ||| k.setWidth 32 <<< 4, 0, m⟩) ∧
  (∀ k a, assemble (.pextp k a) = ⟨0x4 ||| k.setWidth 32 <<< 4, a, 0⟩) ∧
  (∀ k a, assemble (.pdepp k a) = ⟨0x5 ||| k.setWidth 32 <<< 4, a, 0⟩) ∧
  (∀ k (j : Fin 7), assemble (.ppprd k j) =
    ⟨0x6 ||| k.setWidth 32 <<< 4 ||| BitVec.ofNat 32 j.val <<< 6, 0, 0⟩) ∧
  (∀ k, assemble (.ppprdMask k) = assemble (.ppprd k 0)) ∧
  (∀ k (i : Fin 6), assemble (.ppprdPlane k i) = assemble (.ppprd k i.succ))

/-! ## The prefix-XOR unit and the preprocessor -/

/-- R43: bit `b` of `PREFIX_XOR(x)` is the XOR of every bit of `x` at or below `b`. -/
def Obligations.PrefixXorIsRunningXor : Prop :=
  ∀ (x : Word) (b : Nat), b < 64 → (prefixXor x).getLsbD b = xorBelow x (b + 1)

/-- R44: bit `b` of `CLMUL_LO(a, c)` is the XOR over `j` in 0..b of `a[b-j] & c[j]`. -/
def Obligations.ClmulLowBits : Prop :=
  ∀ (a c : Word) (b : Nat), b < 64 →
    (clmulLo a c).getLsbD b =
      (List.range (b + 1)).foldl (fun acc j => acc ^^ (a.getLsbD (b - j) && c.getLsbD j)) false

/-- R45: either form of the prefix-XOR unit gives 0 at bit 0 and the XOR of the bits strictly below `b` at bit `b`. -/
def Obligations.PxsIsExclusiveRunningXor : Prop :=
  ∀ (impl : PrefixImpl) (x : Word),
    (pxsBy impl x).getLsbD 0 = false ∧ ∀ b, 1 ≤ b → b < 64 → (pxsBy impl x).getLsbD b = xorBelow x b

/-- R46: the two forms of the unit give the same word for every input, and so the same PPP structure. -/
def Obligations.PrefixFormsAreEquivalent : Prop :=
  ∀ impl : PrefixImpl, (∀ x, pxsBy impl x = pxs x) ∧ ∀ mask, pppWith (pxsBy impl) mask = ppp mask

/-- R48: plane `i` holds at position `b` the binary digit of weight `2^i` of the count of unset mask bits below `b`,
and the six digits make up that count. -/
def Obligations.PlanesCountUnsetBits : Prop :=
  ∀ (mask : Word) (b : Nat), b < 64 →
    (∀ i : Fin 6, ((ppp mask).planes[i]).getLsbD b = (zerosBelow mask b).testBit i) ∧
    zerosBelow mask b = ∑ i : Fin 6, (((ppp mask).planes[i]).getLsbD b).toNat * 2 ^ i.val

/-- R49: before iteration `i`, `u` has bit `k` set exactly where `mask[k] = 0` and the index of `k` among the unset
positions, which is `ZB(mask, k)`, has its low `i` bits all 1. -/
def Obligations.CarriesAreLowOnesIndices : Prop :=
  ∀ (mask : Word) (i k : Nat), i < 6 → k < 64 →
    ((pppCarry mask i).getLsbD k = true ↔
      mask.getLsbD k = false ∧ ∀ d, d < i → (zerosBelow mask k).testBit d = true)

/-- R50: no plane has bit 0; the all-ones mask has planes 0; the mask 0 has the position's digits; the mask is kept; and
the planes do not depend on `mask[63]`. -/
def Obligations.PppProperties : Prop :=
  (∀ (mask : Word) (i : Fin 6), ((ppp mask).planes[i]).getLsbD 0 = false) ∧
  (ppp 0xFFFFFFFFFFFFFFFF).planes = Vector.replicate 6 0 ∧
  ((∀ (i : Fin 6) (b : Nat), b < 64 → ((ppp 0).planes[i]).getLsbD b = b.testBit i) ∧
    (ppp 0).planes = #v[0xAAAAAAAAAAAAAAAA, 0xCCCCCCCCCCCCCCCC, 0xF0F0F0F0F0F0F0F0, 0xFF00FF00FF00FF00,
      0xFFFF0000FFFF0000, 0xFFFFFFFF00000000]) ∧
  (∀ mask : Word, (ppp mask).mask = mask) ∧
  ((∀ m m' : Word, (∀ b, b < 63 → m.getLsbD b = m'.getLsbD b) → (ppp m).planes = (ppp m').planes) ∧
    (ppp 0x8000000000000000).planes = (ppp 0).planes)

/-! ## Gather -/

/-- R56: at every stage of `GATHER(a, PPP(m))` the bits that stay and the bits that move, where they land, have no set
bit in common, and the stage could as well be an XOR or an addition. -/
def Obligations.GatherStagesNeverCollide : Prop :=
  ∀ (a m : Word) (i : Fin 6),
    let v := gatherRun (ppp m) a (stages.take i.val)
    gatherStay (ppp m) v i &&& gatherMove (ppp m) v i = 0 ∧
    gatherStage (ppp m) v i = gatherStay (ppp m) v i ^^^ gatherMove (ppp m) v i ∧
    gatherStage (ppp m) v i = gatherStay (ppp m) v i + gatherMove (ppp m) v i

/-- R57: bit `k` of the result is `a[b_k]` for `k < p` and 0 from `p` on, where `p = POPCOUNT(m)` and
`b_0 < b_1 < ...` are the positions where `m` is 1; the bit at a selected position `b` lands at `b - ZB(m, b)`. -/
def Obligations.GatherPacksSelectedBits : Prop :=
  ∀ a m : Word,
    (popcount m).toNat = (setPositions m).length ∧
    (∀ (k : Nat) (h : k < (setPositions m).length),
      (gather a (ppp m)).getLsbD k = a.getLsbD (setPositions m)[k]) ∧
    (∀ k, (setPositions m).length ≤ k → (gather a (ppp m)).getLsbD k = false) ∧
    (∀ b, b < 64 → m.getLsbD b = true → (gather a (ppp m)).getLsbD (b - zerosBelow m b) = a.getLsbD b)

/-- R58: the mask 0 gives 0, the all-ones mask gives the input; and where `m[63] = 1`, bit 63 of the result is `a[63]`
only if `m` is all-ones, and is 0 otherwise. -/
def Obligations.GatherEdgeCases : Prop :=
  ∀ a : Word, gather a (ppp 0) = 0 ∧ gather a (ppp 0xFFFFFFFFFFFFFFFF) = a ∧
    ∀ m : Word, m.getLsbD 63 = true →
      (gather a (ppp m)).getLsbD 63 = if m = 0xFFFFFFFFFFFFFFFF then a.getLsbD 63 else false

/-! ## Population count, low-bits mask, scatter -/

/-- R61: `POPCOUNT(x)` is the number of `k` in 0..63 with `x[k] = 1`, an integer 0..64. -/
def Obligations.PopcountCountsOnes : Prop :=
  ∀ x : Word, (popcount x).toNat = onesCount x ∧ (popcount x).toNat ≤ 64

/-- R63: the bits of `LOWMASK(p)` below `p` are 1 and the others 0, for `p` in 0..64. -/
def Obligations.LowMaskBits : Prop :=
  ∀ p : BitVec 7, p.toNat ≤ 64 → ∀ b, b < 64 → (lowMask p).getLsbD b = decide (b < p.toNat)

/-- R64: either form of the pre-mask gives `a & LOWMASK(p)`, for every `a` and every `p` in 0..64. -/
def Obligations.PremaskFormsAreEquivalent : Prop :=
  ∀ (impl : PremaskImpl) (a : Word) (p : BitVec 7), p.toNat ≤ 64 → premaskBy impl a p = a &&& lowMask p

/-- R69: at every stage of `SCATTER(a, PPP(m))` the bits that stay and the bits that move, where they land, have no set
bit in common, no moving bit is lost past bit 63, and the stage could as well be an OR or an XOR. -/
def Obligations.ScatterStagesNeverCollide : Prop :=
  ∀ (a m : Word) (i : Fin 6),
    let v := scatterRun (ppp m) a (stages.reverse.take (5 - i.val))
    scatterStay (ppp m) v i &&& scatterMove (ppp m) v i = 0 ∧
    scatterMove (ppp m) v i >>> shiftAmount i = v &&& scatterBits (ppp m) i ∧
    scatterStage (ppp m) v i = scatterStay (ppp m) v i ||| scatterMove (ppp m) v i ∧
    scatterStage (ppp m) v i = scatterStay (ppp m) v i ^^^ scatterMove (ppp m) v i

/-- R70: bit `b_k` of the result is `a[k]`, every bit where `m` is 0 is 0, and the bits of `a` from `p` on do not affect
the result. -/
def Obligations.ScatterSpreadsLowBits : Prop :=
  ∀ a m : Word,
    (popcount m).toNat = (setPositions m).length ∧
    (∀ (k : Nat) (h : k < (setPositions m).length),
      (scatter a (ppp m)).getLsbD (setPositions m)[k] = a.getLsbD k) ∧
    (∀ x, x < 64 → m.getLsbD x = false → (scatter a (ppp m)).getLsbD x = false) ∧
    (∀ a' : Word, (∀ k, k < (setPositions m).length → a'.getLsbD k = a.getLsbD k) →
      scatter a' (ppp m) = scatter a (ppp m))

/-- R71: the mask 0 gives 0, the all-ones mask gives the input; and with a pre-mask that shifts by the count modulo 64,
the all-ones mask would give 0 for every input. -/
def Obligations.ScatterEdgeCases : Prop :=
  ∀ a : Word, scatter a (ppp 0) = 0 ∧ scatter a (ppp 0xFFFFFFFFFFFFFFFF) = a ∧
    stages.reverse.foldl (scatterStage (ppp 0xFFFFFFFFFFFFFFFF))
      (a &&& ((1 <<< ((popcount 0xFFFFFFFFFFFFFFFF).toNat % 64)) - 1)) = 0

/-- R72: scattering what was gathered gives the value back, and gathering what was scattered gives its low
`POPCOUNT(m)` bits. -/
def Obligations.GatherAndScatterAreInverse : Prop :=
  ∀ m a v : Word,
    (v &&& m = v → scatter (gather v (ppp m)) (ppp m) = v) ∧
    gather (scatter a (ppp m)) (ppp m) = a &&& lowMask (popcount m)

/-! ## The commands -/

/-- R77: INFO completes with the status word and changes nothing else. -/
def Obligations.InfoAnswersStatusWord : Prop :=
  ∀ s : State, CompletesWith (exec .info s) s s.slots ⟨.ok, infoWord s.build s.slots⟩

/-- R59, R73: PEXT completes with A gathered by the mask B, PDEP with A scattered by it, and neither changes a slot. -/
def Obligations.OneShotCommandsAnswer : Prop :=
  ∀ s : State,
    CompletesWith (exec .pext s) s s.slots ⟨.ok, gather s.pins.cmd.a (ppp s.pins.cmd.b)⟩ ∧
    CompletesWith (exec .pdep s) s s.slots ⟨.ok, scatter s.pins.cmd.a (ppp s.pins.cmd.b)⟩

/-- R52: PPP completes with data 0, from any state of its slot; the slot holds `PPP(B)` after it, and every other slot
is as before. -/
def Obligations.PppBuildsItsSlot : Prop :=
  ∀ (s : State) (k : SlotField), ∃ S : SlotFile,
    CompletesWith (exec (.ppp k) s) s S ⟨.ok, 0⟩ ∧
    S[slotIndex k] = some (ppp s.pins.cmd.b) ∧
    ∀ k' : Fin 4, k' ≠ slotIndex k → S[k'] = s.slots[k']

/-- R60, R74: on a valid slot PEXTP completes with A gathered through the slot's structure, PDEPP with A scattered
through it, and neither changes a slot. -/
def Obligations.SlotCommandsAnswer : Prop :=
  ∀ (s : State) (k : SlotField) (p : PppStruct), s.slots[slotIndex k] = some p →
    CompletesWith (exec (.pextp k) s) s s.slots ⟨.ok, gather s.pins.cmd.a p⟩ ∧
    CompletesWith (exec (.pdepp k) s) s s.slots ⟨.ok, scatter s.pins.cmd.a p⟩

/-- R53: PPPRD on a valid slot completes with the mask for index 0 and with plane `i` for index `i + 1`, and changes no
slot. -/
def Obligations.PpprdAnswersWordOfSlot : Prop :=
  ∀ (s : State) (k : SlotField) (p : PppStruct), s.slots[slotIndex k] = some p →
    CompletesWith (exec (.ppprd k 0) s) s s.slots ⟨.ok, p.mask⟩ ∧
    ∀ i : Fin 6,
      CompletesWith (exec (.ppprd k (BitVec.ofNat 3 (i.val + 1))) s) s s.slots ⟨.ok, p.planes[i]⟩

/-- R53, R60, R74, R81: the three commands that need a built slot answer (EMPTY, 0) on one that is not, and PPPRD with
the index 7 answers (ILLEGAL, 0) whatever the slot; none changes a slot. -/
def Obligations.SlotCommandsReportErrors : Prop :=
  ∀ (s : State) (k : SlotField),
    (s.slots[slotIndex k] = none →
      CompletesWith (exec (.pextp k) s) s s.slots ⟨.empty, 0⟩ ∧
      CompletesWith (exec (.pdepp k) s) s s.slots ⟨.empty, 0⟩ ∧
      ∀ j : IdxField, j ≠ 7 → CompletesWith (exec (.ppprd k j) s) s s.slots ⟨.empty, 0⟩) ∧
    CompletesWith (exec (.ppprd k 7) s) s s.slots ⟨.illegal, 0⟩

/-- R14, R24: every command completes; it adds one response to the queue's tail, changes no slot but PPP's own, and
leaves every other piece of the state as it was. -/
def Obligations.CommandFrame : Prop :=
  ∀ (i : Instr) (s : State), ∃ (S : SlotFile) (r : Response),
    CompletesWith (exec i s) s S r ∧
    ∀ k : Fin 4, (∀ k' : SlotField, i = .ppp k' → slotIndex k' ≠ k) → S[k] = s.slots[k]

/-- R75: the fields of the INFO word, and its value after reset. -/
def Obligations.InfoWordFields : Prop :=
  ∀ (b : Build) (S : SlotFile),
    (∀ k : Fin 4, (infoWord b S).getLsbD k.val = slotValid S k) ∧
    (infoWord b S).extractLsb 7 4 = 0 ∧
    (infoWord b S).getLsbD 8 = decide (b.prefixImpl = .clmul) ∧
    (infoWord b S).getLsbD 9 = decide (b.popcntImpl = .native) ∧
    (infoWord b S).getLsbD 10 = decide (b.premaskImpl = .zeroHigh) ∧
    (infoWord b S).extractLsb 15 11 = 0 ∧
    (infoWord b S).extractLsb 23 16 = 4 ∧
    (infoWord b S).extractLsb 31 24 = 1 ∧
    (infoWord b S).extractLsb 63 32 = 0 ∧
    infoWord b SlotFile.cleared =
      0x0000000001040000 ||| (prefixBit b.prefixImpl).setWidth 64 <<< 8 |||
        (popcntBit b.popcntImpl).setWidth 64 <<< 9 ||| (premaskBit b.premaskImpl).setWidth 64 <<< 10

/-- R76: the implementation parameters show in bits [10:8] of INFO's answer and nowhere else: every other command does
the same on an engine of any build with the same LATENCY, and INFO's answers agree outside those bits. -/
def Obligations.OnlyInfoShowsTheBuild : Prop :=
  ∀ (s : State) (b : Build), b.latencyExtra = s.build.latencyExtra →
    (∀ i : Instr, i ≠ .info → exec i (withBuild s b) = mapNext (withBuild · b) (exec i s)) ∧
    ∃ d d' : Word, CompletesWith (exec .info s) s s.slots ⟨.ok, d⟩ ∧
      CompletesWith (exec .info (withBuild s b)) (withBuild s b) s.slots ⟨.ok, d'⟩ ∧
      ∀ n, n < 8 ∨ 10 < n → d.getLsbD n = d'.getLsbD n

/-- R36: the operands a command uses are those of the table, and an operand it does not use affects neither its
response nor the state. -/
def Obligations.UnusedOperandsAreIgnored : Prop :=
  (∀ i : Instr, usesA i = true ↔ i = .pext ∨ i = .pdep ∨ (∃ k, i = .pextp k) ∨ ∃ k, i = .pdepp k) ∧
  (∀ i : Instr, usesB i = true ↔ i = .pext ∨ i = .pdep ∨ ∃ k, i = .ppp k) ∧
  ∀ (i : Instr) (s : State) (v : Word),
    (usesA i = false → exec i (withA s v) = mapNext (withA · v) (exec i s)) ∧
    (usesB i = false → exec i (withB s v) = mapNext (withB · v) (exec i s))

/-- R28: PEXT and PDEP do not depend on the slot file, and INFO depends on its VALID bits only. -/
def Obligations.OneShotCommandsReadNoSlot : Prop :=
  ∀ (s : State) (S : SlotFile),
    exec .pext (withSlots s S) = mapNext (withSlots · S) (exec .pext s) ∧
    exec .pdep (withSlots s S) = mapNext (withSlots · S) (exec .pdep s) ∧
    ((∀ k : Fin 4, slotValid S k = slotValid s.slots k) →
      exec .info (withSlots s S) = mapNext (withSlots · S) (exec .info s))

/-- R60, R74: where the slots are coherent (R13), PEXTP and PDEPP answer exactly what PEXT and PDEP answer with the
slot's mask on `cmd_b`. -/
def Obligations.StoredStructureAgreesWithOneShot : Prop :=
  ∀ (s : State) (k : SlotField) (p : PppStruct), SlotsCoherent s.slots → s.slots[slotIndex k] = some p →
    mapNext (withB · p.mask) (exec (.pextp k) s) = exec .pext (withB s p.mask) ∧
    mapNext (withB · p.mask) (exec (.pdepp k) s) = exec .pdep (withB s p.mask)

/-! ## The step of a command word -/

/-- R41: the command on the port does what `EXEC` says, in the slot file and in the response, and nothing else. -/
def Obligations.PortRunsExec : Prop :=
  ∀ s : State, CompletesWith (runPort s) s
    (execCommand s.build s.slots s.pins.cmd).1 (execCommand s.build s.slots s.pins.cmd).2

/-- R80: ILLEGAL is raised exactly when RSVD is not 0, or OP is 0x7 to 0xF, or SLOT is not 0 for INFO, PEXT or PDEP, or
IDX is not 0 for a command other than PPPRD, or IDX is 7 for PPPRD; the response is (ILLEGAL, 0). -/
def Obligations.IllegalExactlyForTheseWords : Prop :=
  ∀ s : State, ∃ (S : SlotFile) (r : Response), CompletesWith (runPort s) s S r ∧
    (r.status = .illegal ↔ ∃ e, decode s.pins.cmd.word = .error e) ∧
    (r.status = .illegal ↔
      s.pins.cmd.word.extractLsb 31 9 ≠ 0 ∨
      7 ≤ (s.pins.cmd.word.extractLsb 3 0).toNat ∨
      ((s.pins.cmd.word.extractLsb 3 0).toNat ≤ 2 ∧ s.pins.cmd.word.extractLsb 5 4 ≠ 0) ∨
      ((s.pins.cmd.word.extractLsb 3 0).toNat ≠ 6 ∧ s.pins.cmd.word.extractLsb 8 6 ≠ 0) ∨
      ((s.pins.cmd.word.extractLsb 3 0).toNat = 6 ∧ s.pins.cmd.word.extractLsb 8 6 = 7)) ∧
    (r.status = .illegal → r.data = 0)

/-- R81: EMPTY is raised exactly when the word decodes to PEXTP(k), PDEPP(k) or PPPRD(k, j) and slot `k` is not valid;
the response is (EMPTY, 0). -/
def Obligations.EmptyExactlyForUnbuiltSlots : Prop :=
  ∀ s : State, ∃ (S : SlotFile) (r : Response), CompletesWith (runPort s) s S r ∧
    (r.status = .empty ↔ ∃ k : SlotField, slotValid s.slots (slotIndex k) = false ∧
      (decode s.pins.cmd.word = .ok (.pextp k) ∨ decode s.pins.cmd.word = .ok (.pdepp k) ∨
        ∃ j, decode s.pins.cmd.word = .ok (.ppprd k j))) ∧
    (r.status = .empty → r.data = 0)

/-- R82: a command that completes with ILLEGAL or EMPTY changes no slot and no VALID bit, its data is 0, and it still
takes its place at the end of the responses. -/
def Obligations.ErrorsChangeNoState : Prop :=
  ∀ s : State, ∃ (S : SlotFile) (r : Response), CompletesWith (runPort s) s S r ∧
    (r.status ≠ .ok → S = s.slots ∧ r.data = 0)

/-- R78: for every A and B, a command whose word decodes, and whose slot is valid if it needs one, completes with OK. -/
def Obligations.NoDataOperandCausesAnError : Prop :=
  ∀ (s : State) (i : Instr), decode s.pins.cmd.word = .ok i →
    (∀ k : SlotField, (i = .pextp k ∨ i = .pdepp k ∨ ∃ j, i = .ppprd k j) →
      slotValid s.slots (slotIndex k) = true) →
    ∀ a b : Word, ∃ (S : SlotFile) (d : Word),
      CompletesWith (runPort (withA (withB s b) a)) (withA (withB s b) a) S ⟨.ok, d⟩

/-- R84: a word that does not decode reports ILLEGAL whatever the slots hold: the slots are not consulted. -/
def Obligations.IllegalIsCheckedFirst : Prop :=
  ∀ (s : State) (e : Illegal), decode s.pins.cmd.word = .error e → ∀ S : SlotFile,
    CompletesWith (runPort (withSlots s S)) (withSlots s S) S ⟨.illegal, 0⟩

/-- R24: every command is idempotent: the same command word and operands once more leave the same slot file and give
the same response. -/
def Obligations.CommandsAreIdempotent : Prop :=
  ∀ s : State, ∃ (S : SlotFile) (r : Response) (t : State),
    CompletesWith (runPort s) s S r ∧ runPort s = .next t ∧ CompletesWith (runPort t) t S r

/-! ## The clock edge -/

/-- A step runs the decoded instruction: at an edge that accepts the command on the port, the step is `exec` of the
instruction its word decodes to, or the response (ILLEGAL, 0) where it decodes to none (R80), in both cases after the
queue has been served and followed by the end of the edge. The waits in the queue and the order within the edge are
the model's (assumption logs 3 and 15). -/
def Obligations.StepRunsThePresentedCommand : Prop :=
  ∀ s : State, Running s → s.pins.cmdValid = true → s.inflight.length < s.build.maxInflight →
    (∀ i : Instr, decode s.pins.cmd.word = .ok i → step s = mapNext finishAccept (exec i (serveQueue s))) ∧
    (∀ e : Illegal, decode s.pins.cmd.word = .error e →
      step s = .next (finishAccept (raiseIllegal (serveQueue s))))

/-- The model's own placing of a word (assumption log 10): from ANY state, the step after `withFetchWord` runs the
instruction the word decodes to. -/
def Obligations.PlacedWordIsRunNext : Prop :=
  ∀ (s : State) (w : CmdWord) (i : Instr), decode w = .ok i →
    step (s.withFetchWord 32 w.toNat) = mapNext finishAccept (exec i (serveQueue (s.withFetchWord 32 w.toNat)))

/-- R31: a command is accepted at an edge exactly where `rst_n`, `cmd_valid` and `cmd_ready` are 1; the edge then
performs `EXEC` on it and its response joins the tail of the queue; `cmd_ready` is 1 exactly where `rst_n` is 1 and
fewer than MAX_INFLIGHT commands are in flight at the start of the cycle; and no edge accepts more than one. -/
def Obligations.AcceptanceRule : Prop :=
  (∀ s : State, cmdReady s = true ↔ s.pins.rstN = true ∧ s.inflight.length < s.build.maxInflight) ∧
  (∀ s : State, s.resetSeen = true → (outputs s).cmdReady = cmdReady s) ∧
  ∀ s t : State, s.resetSeen = true → s.pins.rstN = true → step s = .next t →
    (s.pins.cmdValid = true ∧ cmdReady s = true →
      t.accepted = s.accepted ++ [s.pins.cmd] ∧
      t.slots = (execCommand s.build s.slots s.pins.cmd).1 ∧
      t.inflight.getLast? = some ⟨(execCommand s.build s.slots s.pins.cmd).2, responseWait s⟩ ∧
      responsesOf t = responsesOf s ++ [(execCommand s.build s.slots s.pins.cmd).2]) ∧
    (¬(s.pins.cmdValid = true ∧ cmdReady s = true) →
      t.accepted = s.accepted ∧ t.slots = s.slots ∧ responsesOf t = responsesOf s)

/-- R40, and the head of the queue on the ports: where `rsp_valid` is 1, `rsp_status` and `rsp_data` carry the head's
response, its status code 0, 1 or 2. That `rsp_valid` is 1 exactly where reset is released and the head's wait is 0 is
the model's choice of the moment that R32 leaves open between LATENCY and any finite time (assumption log 3). -/
def Obligations.ResponsePortShowsTheHead : Prop :=
  ∀ s : State, s.resetSeen = true →
    ((outputs s).rspValid = true ↔ s.pins.rstN = true ∧ ∃ e q, s.inflight = e :: q ∧ e.wait = 0) ∧
    ∀ e q, (outputs s).rspValid = true → s.inflight = e :: q →
      (outputs s).rspStatus = statusCode e.rsp.status ∧ (outputs s).rspData = e.rsp.data ∧
      (e.rsp.status = .ok ↔ (outputs s).rspStatus = 0) ∧
      (e.rsp.status = .illegal ↔ (outputs s).rspStatus = 1) ∧
      (e.rsp.status = .empty ↔ (outputs s).rspStatus = 2) ∧ (outputs s).rspStatus ≠ 3

/-- R32: a response that is presented and not taken does not change. -/
def Obligations.PresentedResponseIsStable : Prop :=
  ∀ s t : State, Running s → rspValid s = true → s.pins.rspReady = false → step s = .next t →
    t.pins.rstN = true → rspValid t = true ∧ rspPort t = rspPort s

/-- What one running edge does to the queue of R18 and R32: the head leaves, into the run's responses, exactly where it
is presented and `rsp_ready` is 1; every command that stays keeps its place and its response; at most one command joins.
The waits are the model's choice and no rule's (assumption log 3): the head is presented where its wait is 0, every
command that stays has one edge less to wait, and a new one waits so that its response is delivered LATENCY edges or
more after its acceptance. That all of it looks at the state before the edge is the model's reading (assumption
log 15). -/
def Obligations.QueueMovesInOrder : Prop :=
  ∀ s t : State, Running s → step s = .next t →
    ∃ new : List InFlight, new.length ≤ 1 ∧ (∀ e ∈ new, s.build.latency ≤ e.wait + 1) ∧
      (s.pins.rspReady = true → ∀ e q, s.inflight = e :: q → e.wait = 0 →
        t.delivered = s.delivered ++ [e.rsp] ∧ t.inflight = q.map (fun x => ⟨x.rsp, x.wait - 1⟩) ++ new) ∧
      (¬(s.pins.rspReady = true ∧ ∃ e q, s.inflight = e :: q ∧ e.wait = 0) →
        t.delivered = s.delivered ∧ t.inflight = s.inflight.map (fun x => ⟨x.rsp, x.wait - 1⟩) ++ new)

/-- R32, R96: over any number of edges less than LATENCY after the edge that leaves `s`, no response is delivered but
those of commands accepted before that edge: a command accepted at it, or later, has its response delivered LATENCY
edges after its acceptance at the earliest. That a cycle is one edge to the next is the model's reading (assumption
log 3). -/
def Obligations.NoResponseBeforeLatency : Prop :=
  ∀ (n : Nat) (s t u : State), step s = .next t → n < s.build.latency → Host.Core.run Sys2Proof.core n t = .next u →
    u.delivered.length ≤ (responsesOf s).length

/-- R32's finite time: after as many edges without reset as the head has still to wait, its response stands on the
response port. The wait is the model's free delay (assumption log 3). -/
def Obligations.HeadIsPresentedAfterItsWait : Prop :=
  ∀ (n : Nat) (s t : State) (r : Response) (q : List InFlight), s.resetSeen = true → s.inflight = ⟨r, n⟩ :: q →
    n ≤ s.upcoming.length → (∀ p ∈ s.pins :: s.upcoming, p.rstN = true) →
    Host.Core.run Sys2Proof.core n s = .next t → rspPort t = some r

/-- R27, R93: PEXTP, PDEPP and PPPRD accepted at the edge right after a PPP to the same slot see that PPP's
structure. -/
def Obligations.PppIsSeenByTheNextCommand : Prop :=
  ∀ (s t u : State) (k : SlotField), Running s → accepting s = true → decode s.pins.cmd.word = .ok (.ppp k) →
    step s = .next t → Running t → accepting t = true → step t = .next u →
    (decode t.pins.cmd.word = .ok (.pextp k) →
      (responsesOf u).getLast? = some ⟨.ok, gather t.pins.cmd.a (ppp s.pins.cmd.b)⟩) ∧
    (decode t.pins.cmd.word = .ok (.pdepp k) →
      (responsesOf u).getLast? = some ⟨.ok, scatter t.pins.cmd.a (ppp s.pins.cmd.b)⟩) ∧
    (decode t.pins.cmd.word = .ok (.ppprd k 0) → (responsesOf u).getLast? = some ⟨.ok, s.pins.cmd.b⟩)

/-- R89: every edge with `rst_n = 0`, whatever the state and the other ports, leaves the post-reset state; while
`rst_n = 0`, `cmd_ready` and `rsp_valid` are 0 and no command is accepted; and the first edge with `rst_n = 1` after it
may accept a command. -/
def Obligations.ResetEdgeRule : Prop :=
  ∀ s : State, s.pins.rstN = false → ∃ t : State, step s = .next t ∧ PostReset t ∧
    (∀ k : Fin 4, slotValid t.slots k = false) ∧
    cmdReady s = false ∧ rspValid s = false ∧
    (t.pins.rstN = true → cmdReady t = true)

/-- R91, R94: the only stops. A step faults exactly at an edge without reset before the first reset, refuses exactly
where the host has withdrawn or changed a command it must hold, and otherwise answers a next state. -/
def Obligations.StepStopsOnlyHere : Prop :=
  ∀ s : State,
    ((∃ f, step s = .fault f) ↔ s.pins.rstN = true ∧ s.resetSeen = false) ∧
    ((∃ r, step s = .refused r) ↔ s.pins.rstN = true ∧ s.resetSeen = true ∧
      ∃ c, s.waiting = some c ∧ ¬(s.pins.cmdValid = true ∧ s.pins.cmd = c)) ∧
    (∀ r, step s = .refused r → r = .handshakeBroken)

/-- R94 and the model's own fields around a step: the command the host must hold is the one it presented and that was
not accepted; the ports move to the next listed inputs, or to whatever the host drives where none is listed (assumption
log 4); the build never changes (R4); and the engine stays reset (R91). -/
def Obligations.PortsAdvanceAndBuildStays : Prop :=
  ∀ s t : State, step s = .next t →
    t.waiting = (if s.pins.cmdValid = true ∧ cmdReady s = false then some s.pins.cmd else none) ∧
    (∀ p ps, s.upcoming = p :: ps → t.pins = p ∧ t.upcoming = ps) ∧
    (s.upcoming = [] → t.pins = Config.hostPins s.tick ∧ t.upcoming = []) ∧
    t.build = s.build ∧ t.resetSeen = true

/-! ## Invariants and runs -/

/-- R19: the reset state is the post-reset state, with no slot valid, an empty queue, no response presented and the
VALID field of the INFO word 0. -/
def Obligations.ResetStateIsPostReset : Prop :=
  PostReset State.reset ∧ (∀ k : Fin 4, slotValid State.reset.slots k = false) ∧ rspValid State.reset = false ∧
  validBits State.reset.slots = 0

/-- The invariant holds at reset. -/
def Obligations.ResetMeetsInvariant : Prop := State.reset.Inv

/-- R18, R26: every step keeps the invariant: the queue is bounded by MAX_INFLIGHT, and slot file and responses are
those of the accepted commands executed one after the other. -/
def Obligations.StepKeepsInvariant : Prop :=
  ∀ s t : State, s.Inv → step s = .next t → t.Inv

/-- R26: from the post-reset state, under any host and any build, after any number of edges: every accepted command has
exactly one response, response `j` is that of command `j` in `EXEC` of the state the commands before it leave, and the
delivered responses are the first of them, in that order: all of them once the run is complete (R95). -/
def Obligations.RunIsSequential : Prop :=
  ∀ (n : Nat) (s t : State), PostReset s → Host.Core.run Sys2Proof.core n s = .next t →
    runCommands t.build t.accepted = (t.slots, responsesOf t) ∧
    (responsesOf t).length = t.accepted.length ∧
    t.delivered = (runCommands t.build t.accepted).2.take t.delivered.length ∧
    (RunComplete t → t.delivered = (runCommands t.build t.accepted).2)

/-- R13: in every state a run reaches, a valid slot holds the PPP structure of its own mask: it does after reset, every
step keeps it, and a command changes a slot only by writing `PPP(B)` into it. -/
def Obligations.SlotsStayCoherent : Prop :=
  SlotsCoherent State.reset.slots ∧
  (∀ s t : State, SlotsCoherent s.slots → step s = .next t → SlotsCoherent t.slots) ∧
  ∀ (i : Instr) (s t : State) (k : Fin 4), exec i s = .next t → t.slots[k] ≠ s.slots[k] →
    (∃ k', i = .ppp k' ∧ slotIndex k' = k) ∧ t.slots[k] = some (ppp s.pins.cmd.b)

/-- R14: no command clears a VALID bit; only reset does. -/
def Obligations.OnlyResetClearsValid : Prop :=
  ∀ (s t : State) (k : Fin 4), step s = .next t → slotValid s.slots k = true →
    (slotValid t.slots k = false ↔ s.pins.rstN = false)
end

