-- ==== Sys2Proof/Laws/Bits.lean ====
section
/-! SUPPORT. The small lemmas of the bit functions: what each does at one bit, or one step further, so that the proofs
about gather, scatter and the planes need not unfold them. -/

namespace Sys2Proof.Machine

/-! ## Counts -/

@[simp] theorem xorBelow_zero (x : Word) : xorBelow x 0 = false := rfl

@[simp] theorem xorBelow_succ (x : Word) (b : Nat) : xorBelow x (b + 1) = (xorBelow x b ^^ x.getLsbD b) := by
  simp [xorBelow, List.range_succ]

@[simp] theorem zerosBelow_zero (mask : Word) : zerosBelow mask 0 = 0 := rfl

@[simp] theorem zerosBelow_succ (mask : Word) (b : Nat) :
    zerosBelow mask (b + 1) = zerosBelow mask b + if mask.getLsbD b then 0 else 1 := by
  cases h : mask.getLsbD b <;> simp [zerosBelow, List.range_succ, h]

theorem zerosBelow_le (mask : Word) (b : Nat) : zerosBelow mask b ≤ b := by
  simpa [zerosBelow] using List.countP_le_length (l := List.range b) (p := fun k => !mask.getLsbD k)

/-- The count below a lower position is at most as many less as the positions lie apart. -/
theorem zerosBelow_sub_le (mask : Word) (b r : Nat) : zerosBelow mask (b + r) ≤ zerosBelow mask b + r := by
  induction r with
  | zero => simp
  | succ r ih =>
    rw [← Nat.add_assoc, zerosBelow_succ]
    split <;> omega

theorem zerosBelow_mono (mask : Word) {b c : Nat} (h : b ≤ c) : zerosBelow mask b ≤ zerosBelow mask c := by
  induction h with
  | refl => exact Nat.le_refl _
  | step _ ih => rw [zerosBelow_succ]; omega

theorem mem_setPositions (m : Word) (b : Nat) : b ∈ setPositions m ↔ b < 64 ∧ m.getLsbD b = true := by
  simp [setPositions]

/-! ## The preprocessor -/

@[simp] theorem ppp_mask (m : Word) : (ppp m).mask = m := rfl

/-- Plane `i` is the prefix-XOR of what iteration `i` reads (R47). -/
theorem ppp_plane (m : Word) (i : Fin 6) : (ppp m).planes[i] = pxs (pppCarry m i.val) := by
  fin_cases i <;> rfl

@[simp] theorem pppCarry_zero (m : Word) : pppCarry m 0 = ~~~m := rfl

theorem pppCarry_succ (m : Word) (i : Nat) : pppCarry m (i + 1) = pppCarry m i &&& pxs (pppCarry m i) := rfl

/-! ## The stages -/

/-- One stage of gather at one bit: what stays there, or what comes down to it (R54). -/
theorem gatherStage_getLsbD (p : PppStruct) (a : Word) (i : Fin 6) (b : Nat) :
    (gatherStage p a i).getLsbD b =
      ((decide (b < 64) && a.getLsbD b && !(p.planes[i]).getLsbD b) ||
        (a.getLsbD (shiftAmount i + b) && (p.planes[i]).getLsbD (shiftAmount i + b))) := by
  simp only [gatherStage, gatherStay, gatherMove, BitVec.getLsbD_or, BitVec.getLsbD_and, BitVec.getLsbD_not,
    BitVec.getLsbD_ushiftRight]
  by_cases h : b < 64 <;> simp [h]

theorem gatherRun_append (p : PppStruct) (a : Word) (is js : List (Fin 6)) :
    gatherRun p a (is ++ js) = js.foldl (gatherStage p) (gatherRun p a is) := by
  simp [gatherRun, List.foldl_append]

theorem scatterRun_append (p : PppStruct) (a : Word) (is js : List (Fin 6)) :
    scatterRun p a (is ++ js) = js.foldl (scatterStage p) (scatterRun p a is) := by
  simp [scatterRun, List.foldl_append]

/-- The plane of a scatter stage at one bit (R68). -/
theorem scatterBits_getLsbD (p : PppStruct) (i : Fin 6) (b : Nat) :
    (scatterBits p i).getLsbD b = (p.planes[i]).getLsbD (shiftAmount i + b) := by
  simp [scatterBits]

/-- The moving bits of a scatter stage at one bit (R66). -/
theorem scatterMove_getLsbD (p : PppStruct) (a : Word) (i : Fin 6) (b : Nat) :
    (scatterMove p a i).getLsbD b =
      (decide (b < 64) && !decide (b < shiftAmount i) &&
        (a.getLsbD (b - shiftAmount i) && (scatterBits p i).getLsbD (b - shiftAmount i))) := by
  simp [scatterMove]

/-- Where the two groups of bits of a scatter stage are disjoint, the stage is their OR (R69). -/
theorem scatterStage_eq_or (p : PppStruct) (a : Word) (i : Fin 6)
    (h : scatterStay p a i &&& scatterMove p a i = 0) :
    scatterStage p a i = scatterStay p a i ||| scatterMove p a i :=
  BitVec.add_eq_or_of_and_eq_zero _ _ h

end Sys2Proof.Machine
end

