-- ==== Sys2Proof/Laws/State.lean ====
section
/-! SUPPORT. What every update of the state does to every field: one lemma per field per update, each true by rfl. -/

namespace Sys2Proof.Machine

@[simp] theorem writeSlot_slots (s : State) (k : SlotField) (p : PppStruct) :
    (writeSlot s k p).slots = s.slots.set (slotIndex k) (some p) := rfl
@[simp] theorem writeSlot_inflight (s : State) (k : SlotField) (p : PppStruct) :
    (writeSlot s k p).inflight = s.inflight := rfl
@[simp] theorem writeSlot_resetSeen (s : State) (k : SlotField) (p : PppStruct) :
    (writeSlot s k p).resetSeen = s.resetSeen := rfl
@[simp] theorem writeSlot_build (s : State) (k : SlotField) (p : PppStruct) : (writeSlot s k p).build = s.build := rfl
@[simp] theorem writeSlot_pins (s : State) (k : SlotField) (p : PppStruct) : (writeSlot s k p).pins = s.pins := rfl
@[simp] theorem writeSlot_upcoming (s : State) (k : SlotField) (p : PppStruct) :
    (writeSlot s k p).upcoming = s.upcoming := rfl
@[simp] theorem writeSlot_waiting (s : State) (k : SlotField) (p : PppStruct) :
    (writeSlot s k p).waiting = s.waiting := rfl
@[simp] theorem writeSlot_tick (s : State) (k : SlotField) (p : PppStruct) : (writeSlot s k p).tick = s.tick := rfl
@[simp] theorem writeSlot_accepted (s : State) (k : SlotField) (p : PppStruct) :
    (writeSlot s k p).accepted = s.accepted := rfl
@[simp] theorem writeSlot_delivered (s : State) (k : SlotField) (p : PppStruct) :
    (writeSlot s k p).delivered = s.delivered := rfl

@[simp] theorem respond_slots (s : State) (st : Status) (d : Word) : (respond s st d).slots = s.slots := rfl
@[simp] theorem respond_inflight (s : State) (st : Status) (d : Word) :
    (respond s st d).inflight = s.inflight ++ [⟨⟨st, d⟩, responseWait s⟩] := rfl
@[simp] theorem respond_resetSeen (s : State) (st : Status) (d : Word) :
    (respond s st d).resetSeen = s.resetSeen := rfl
@[simp] theorem respond_build (s : State) (st : Status) (d : Word) : (respond s st d).build = s.build := rfl
@[simp] theorem respond_pins (s : State) (st : Status) (d : Word) : (respond s st d).pins = s.pins := rfl
@[simp] theorem respond_upcoming (s : State) (st : Status) (d : Word) : (respond s st d).upcoming = s.upcoming := rfl
@[simp] theorem respond_waiting (s : State) (st : Status) (d : Word) : (respond s st d).waiting = s.waiting := rfl
@[simp] theorem respond_tick (s : State) (st : Status) (d : Word) : (respond s st d).tick = s.tick := rfl
@[simp] theorem respond_accepted (s : State) (st : Status) (d : Word) : (respond s st d).accepted = s.accepted := rfl
@[simp] theorem respond_delivered (s : State) (st : Status) (d : Word) :
    (respond s st d).delivered = s.delivered := rfl

@[simp] theorem deliver_slots (s : State) : (deliver s).slots = s.slots := rfl
@[simp] theorem deliver_inflight (s : State) : (deliver s).inflight = s.inflight.drop (deliveredNow s).length := rfl
@[simp] theorem deliver_resetSeen (s : State) : (deliver s).resetSeen = s.resetSeen := rfl
@[simp] theorem deliver_build (s : State) : (deliver s).build = s.build := rfl
@[simp] theorem deliver_pins (s : State) : (deliver s).pins = s.pins := rfl
@[simp] theorem deliver_upcoming (s : State) : (deliver s).upcoming = s.upcoming := rfl
@[simp] theorem deliver_waiting (s : State) : (deliver s).waiting = s.waiting := rfl
@[simp] theorem deliver_tick (s : State) : (deliver s).tick = s.tick := rfl
@[simp] theorem deliver_accepted (s : State) : (deliver s).accepted = s.accepted := rfl
@[simp] theorem deliver_delivered (s : State) : (deliver s).delivered = s.delivered ++ deliveredNow s := rfl

@[simp] theorem serveQueue_slots (s : State) : (serveQueue s).slots = s.slots := rfl
@[simp] theorem serveQueue_inflight (s : State) :
    (serveQueue s).inflight = (s.inflight.drop (deliveredNow s).length).map InFlight.aged := rfl
@[simp] theorem serveQueue_resetSeen (s : State) : (serveQueue s).resetSeen = s.resetSeen := rfl
@[simp] theorem serveQueue_build (s : State) : (serveQueue s).build = s.build := rfl
@[simp] theorem serveQueue_pins (s : State) : (serveQueue s).pins = s.pins := rfl
@[simp] theorem serveQueue_upcoming (s : State) : (serveQueue s).upcoming = s.upcoming := rfl
@[simp] theorem serveQueue_waiting (s : State) : (serveQueue s).waiting = s.waiting := rfl
@[simp] theorem serveQueue_tick (s : State) : (serveQueue s).tick = s.tick := rfl
@[simp] theorem serveQueue_accepted (s : State) : (serveQueue s).accepted = s.accepted := rfl
@[simp] theorem serveQueue_delivered (s : State) : (serveQueue s).delivered = s.delivered ++ deliveredNow s := rfl

@[simp] theorem advance_slots (s : State) : (advance s).slots = s.slots := rfl
@[simp] theorem advance_inflight (s : State) : (advance s).inflight = s.inflight := rfl
@[simp] theorem advance_resetSeen (s : State) : (advance s).resetSeen = s.resetSeen := rfl
@[simp] theorem advance_build (s : State) : (advance s).build = s.build := rfl
@[simp] theorem advance_pins (s : State) : (advance s).pins = s.upcoming.headD (Config.hostPins s.tick) := rfl
@[simp] theorem advance_upcoming (s : State) : (advance s).upcoming = s.upcoming.tail := rfl
@[simp] theorem advance_waiting (s : State) : (advance s).waiting = s.waiting := rfl
@[simp] theorem advance_tick (s : State) : (advance s).tick = s.tick + 1 := rfl
@[simp] theorem advance_accepted (s : State) : (advance s).accepted = s.accepted := rfl
@[simp] theorem advance_delivered (s : State) : (advance s).delivered = s.delivered := rfl

@[simp] theorem finishAccept_slots (s : State) : (finishAccept s).slots = s.slots := rfl
@[simp] theorem finishAccept_inflight (s : State) : (finishAccept s).inflight = s.inflight := rfl
@[simp] theorem finishAccept_resetSeen (s : State) : (finishAccept s).resetSeen = s.resetSeen := rfl
@[simp] theorem finishAccept_build (s : State) : (finishAccept s).build = s.build := rfl
@[simp] theorem finishAccept_pins (s : State) :
    (finishAccept s).pins = s.upcoming.headD (Config.hostPins s.tick) := rfl
@[simp] theorem finishAccept_upcoming (s : State) : (finishAccept s).upcoming = s.upcoming.tail := rfl
@[simp] theorem finishAccept_waiting (s : State) : (finishAccept s).waiting = none := rfl
@[simp] theorem finishAccept_tick (s : State) : (finishAccept s).tick = s.tick + 1 := rfl
@[simp] theorem finishAccept_accepted (s : State) : (finishAccept s).accepted = s.accepted ++ [s.pins.cmd] := rfl
@[simp] theorem finishAccept_delivered (s : State) : (finishAccept s).delivered = s.delivered := rfl

@[simp] theorem finishIdle_slots (s : State) : (finishIdle s).slots = s.slots := rfl
@[simp] theorem finishIdle_inflight (s : State) : (finishIdle s).inflight = s.inflight := rfl
@[simp] theorem finishIdle_resetSeen (s : State) : (finishIdle s).resetSeen = s.resetSeen := rfl
@[simp] theorem finishIdle_build (s : State) : (finishIdle s).build = s.build := rfl
@[simp] theorem finishIdle_pins (s : State) : (finishIdle s).pins = s.upcoming.headD (Config.hostPins s.tick) := rfl
@[simp] theorem finishIdle_upcoming (s : State) : (finishIdle s).upcoming = s.upcoming.tail := rfl
@[simp] theorem finishIdle_waiting (s : State) : (finishIdle s).waiting = heldCommand s := rfl
@[simp] theorem finishIdle_tick (s : State) : (finishIdle s).tick = s.tick + 1 := rfl
@[simp] theorem finishIdle_accepted (s : State) : (finishIdle s).accepted = s.accepted := rfl
@[simp] theorem finishIdle_delivered (s : State) : (finishIdle s).delivered = s.delivered := rfl

@[simp] theorem resetEdge_slots (s : State) : (resetEdge s).slots = SlotFile.cleared := rfl
@[simp] theorem resetEdge_inflight (s : State) : (resetEdge s).inflight = [] := rfl
@[simp] theorem resetEdge_resetSeen (s : State) : (resetEdge s).resetSeen = true := rfl
@[simp] theorem resetEdge_build (s : State) : (resetEdge s).build = s.build := rfl
@[simp] theorem resetEdge_pins (s : State) : (resetEdge s).pins = s.upcoming.headD (Config.hostPins s.tick) := rfl
@[simp] theorem resetEdge_upcoming (s : State) : (resetEdge s).upcoming = s.upcoming.tail := rfl
@[simp] theorem resetEdge_waiting (s : State) : (resetEdge s).waiting = heldCommand s := rfl
@[simp] theorem resetEdge_tick (s : State) : (resetEdge s).tick = s.tick + 1 := rfl
@[simp] theorem resetEdge_accepted (s : State) : (resetEdge s).accepted = [] := rfl
@[simp] theorem resetEdge_delivered (s : State) : (resetEdge s).delivered = [] := rfl

@[simp] theorem withFetchWord_slots (s : State) (n w : Nat) : (s.withFetchWord n w).slots = s.slots := rfl
@[simp] theorem withFetchWord_inflight (s : State) (n w : Nat) : (s.withFetchWord n w).inflight = roomyQueue s := rfl
@[simp] theorem withFetchWord_resetSeen (s : State) (n w : Nat) : (s.withFetchWord n w).resetSeen = true := rfl
@[simp] theorem withFetchWord_build (s : State) (n w : Nat) : (s.withFetchWord n w).build = s.build := rfl
@[simp] theorem withFetchWord_pins (s : State) (n w : Nat) :
    (s.withFetchWord n w).pins = ⟨true, true, ⟨BitVec.ofNat 32 (w % 2 ^ n), s.pins.cmd.a, s.pins.cmd.b⟩, s.pins.rspReady⟩ := rfl
@[simp] theorem withFetchWord_upcoming (s : State) (n w : Nat) : (s.withFetchWord n w).upcoming = s.upcoming := rfl
@[simp] theorem withFetchWord_waiting (s : State) (n w : Nat) : (s.withFetchWord n w).waiting = none := rfl
@[simp] theorem withFetchWord_tick (s : State) (n w : Nat) : (s.withFetchWord n w).tick = s.tick := rfl
@[simp] theorem withFetchWord_accepted (s : State) (n w : Nat) : (s.withFetchWord n w).accepted = s.accepted := rfl
@[simp] theorem withFetchWord_delivered (s : State) (n w : Nat) : (s.withFetchWord n w).delivered = s.delivered := rfl

@[simp] theorem raiseIllegal_eq (s : State) : raiseIllegal s = respond s .illegal 0 := rfl
@[simp] theorem raiseEmpty_eq (s : State) : raiseEmpty s = respond s .empty 0 := rfl
@[simp] theorem operandA_eq (s : State) : operandA s = s.pins.cmd.a := rfl
@[simp] theorem operandB_eq (s : State) : operandB s = s.pins.cmd.b := rfl

@[simp] theorem mapNext_next (f : State → State) (s : State) : mapNext f (.next s) = .next (f s) := rfl
@[simp] theorem mapNext_fault (f : State → State) (r : Fault) : mapNext f (.fault r) = .fault r := rfl
@[simp] theorem mapNext_refused (f : State → State) (r : Refusal) : mapNext f (.refused r) = .refused r := rfl

end Sys2Proof.Machine
end

