-- ==== Sys2Proof/Laws/Ops.lean ====
section
/-! SUPPORT. What each shared operation can do, said once: the proofs cite these and do not unfold the operations. -/

namespace Sys2Proof.Machine

/-! ## Slots -/

theorem slotIndex_inj {k k' : SlotField} : slotIndex k = slotIndex k' ↔ k = k' := by revert k k'; decide

theorem readSlot_writeSlot_same (s : State) (k : SlotField) (p : PppStruct) :
    readSlot (writeSlot s k p) k = some p := by simp [readSlot]

theorem readSlot_writeSlot_other (s : State) {k k' : SlotField} (p : PppStruct) (h : k' ≠ k) :
    readSlot (writeSlot s k p) k' = readSlot s k' := by
  have : (slotIndex k).val ≠ (slotIndex k').val := fun e => h (slotIndex_inj.1 (Fin.ext e)).symm
  simp [readSlot, Vector.getElem_set_ne, this]

theorem respondFromSlot_none {s : State} {k : SlotField} {f : PppStruct → Word} (h : s.slots[slotIndex k] = none) :
    respondFromSlot s k f = respond s .empty 0 := by simp only [respondFromSlot, readSlot, h, raiseEmpty]

theorem respondFromSlot_some {s : State} {k : SlotField} {f : PppStruct → Word} {p : PppStruct}
    (h : s.slots[slotIndex k] = some p) : respondFromSlot s k f = respond s .ok (f p) := by
  simp only [respondFromSlot, readSlot, h]

/-- A command through a slot adds one response and does nothing else. -/
theorem respondFromSlot_eq_respond (s : State) (k : SlotField) (f : PppStruct → Word) :
    ∃ st d, respondFromSlot s k f = respond s st d := by
  cases h : s.slots[slotIndex k] with
  | none => exact ⟨_, _, respondFromSlot_none h⟩
  | some p => exact ⟨_, _, respondFromSlot_some h⟩

/-! ## Commands -/

/-- What a command can do: it answers a next state that has one more response and, for PPP, a new slot. -/
theorem exec_cases (i : Instr) (s : State) :
    (∃ st d, exec i s = .next (respond s st d)) ∨
      ∃ k, i = .ppp k ∧ exec i s = .next (respond (writeSlot s k (ppp s.pins.cmd.b)) .ok 0) := by
  cases i with
  | info => exact .inl ⟨_, _, rfl⟩
  | pext => exact .inl ⟨_, _, rfl⟩
  | pdep => exact .inl ⟨_, _, rfl⟩
  | ppp k => exact .inr ⟨k, rfl, rfl⟩
  | pextp k =>
    obtain ⟨st, d, h⟩ := respondFromSlot_eq_respond s k (gather (operandA s))
    exact .inl ⟨st, d, congrArg _ h⟩
  | pdepp k =>
    obtain ⟨st, d, h⟩ := respondFromSlot_eq_respond s k (scatter (operandA s))
    exact .inl ⟨st, d, congrArg _ h⟩
  | ppprd k j =>
    show (∃ st d, execPpprd k j s = _) ∨ _
    unfold execPpprd
    split
    · exact .inl ⟨_, _, rfl⟩
    · rename_i r _
      obtain ⟨st, d, h⟩ := respondFromSlot_eq_respond s k (fun p => pppWord p r)
      exact .inl ⟨st, d, congrArg _ h⟩

theorem runPort_ok {s : State} {i : Instr} (h : decode s.pins.cmd.word = .ok i) : runPort s = exec i s := by
  simp only [runPort, h]

theorem runPort_error {s : State} {e : Illegal} (h : decode s.pins.cmd.word = .error e) :
    runPort s = .next (respond s .illegal 0) := by simp only [runPort, h, raiseIllegal]

/-! ## Handshake and queue -/

theorem fewerThan_iff {α : Type} (q : List α) (n : Nat) : fewerThan q n = true ↔ q.length < n := by
  induction q generalizing n with
  | nil => cases n <;> simp [fewerThan]
  | cons a q ih => cases n <;> simp [fewerThan, ih]

theorem headDue_iff (q : List InFlight) : headDue q = true ↔ ∃ e q', q = e :: q' ∧ e.wait = 0 := by
  cases q <;> simp [headDue]

/-- What is delivered at an edge: nothing, or the response at the head, due and taken. -/
theorem deliveredNow_cases (s : State) :
    deliveredNow s = [] ∨ ∃ e q, s.inflight = e :: q ∧ e.wait = 0 ∧ s.pins.rstN = true ∧ s.pins.rspReady = true ∧
      deliveredNow s = [e.rsp] := by
  unfold deliveredNow rspPort rspValid
  cases hq : s.inflight with
  | nil => simp
  | cons e q => cases hr : s.pins.rspReady <;> cases hn : s.pins.rstN <;> by_cases hw : e.wait = 0 <;> simp [headDue, hw]

theorem deliveredNow_due {s : State} {e : InFlight} {q : List InFlight} (hn : s.pins.rstN = true)
    (hr : s.pins.rspReady = true) (hq : s.inflight = e :: q) (hw : e.wait = 0) : deliveredNow s = [e.rsp] := by
  simp [deliveredNow, rspPort, rspValid, headDue, hn, hr, hq, hw]

theorem deliveredNow_not_due {s : State}
    (h : ¬(s.pins.rspReady = true ∧ ∃ e q, s.inflight = e :: q ∧ e.wait = 0)) : deliveredNow s = [] := by
  rcases deliveredNow_cases s with h' | ⟨e, q, hq, hw, -, hr, -⟩
  · exact h'
  · exact absurd ⟨hr, e, q, hq, hw⟩ h

@[simp] theorem responseWait_serveQueue (s : State) : responseWait (serveQueue s) = responseWait s := rfl

/-- Serving the queue moves a response from the queue to the run and changes none. -/
@[simp] theorem responsesOf_serveQueue (s : State) : responsesOf (serveQueue s) = responsesOf s := by
  have haged : (fun e : InFlight => e.rsp) ∘ InFlight.aged = fun e => e.rsp := rfl
  rcases deliveredNow_cases s with h | ⟨e, q, hq, -, -, -, h⟩
  · simp [responsesOf, h, haged]
  · simp [responsesOf, h, hq, haged]

/-! ## The clock edge -/

/-- What an edge that answers a next state did. -/
theorem step_cases {s t : State} (h : step s = .next t) :
    (s.pins.rstN = false ∧ t = resetEdge s) ∨
      (Running s ∧ accepting s = false ∧ t = finishIdle (serveQueue s)) ∨
      (Running s ∧ accepting s = true ∧ ∃ u, runPort (serveQueue s) = .next u ∧ t = finishAccept u) := by
  unfold step clockEdge at h
  by_cases hr : s.pins.rstN = true
  · by_cases hs : s.resetSeen = true
    · by_cases hb : handshakeBroken s = true
      · simp [hr, hs, hb] at h
      · have run : Running s := ⟨hr, hs, by simpa using hb⟩
        by_cases ha : accepting s = true
        · cases hp : runPort (serveQueue s) with
          | next u =>
            rw [if_pos hr, if_pos hs, if_neg hb, if_pos ha, hp] at h
            exact .inr (.inr ⟨run, ha, u, rfl, by simpa using h.symm⟩)
          | fault f => simp [hr, hs, hb, ha, hp] at h
          | refused f => simp [hr, hs, hb, ha, hp] at h
        · rw [if_pos hr, if_pos hs, if_neg hb, if_neg ha] at h
          exact .inr (.inl ⟨run, by simpa using ha, by simpa using h.symm⟩)
    · simp [hr, hs] at h
  · rw [if_neg hr] at h
    exact .inl ⟨by simpa using hr, by simpa using h.symm⟩

theorem step_accept {s : State} (hr : Running s) (ha : accepting s = true) :
    step s = mapNext finishAccept (runPort (serveQueue s)) := by
  simp [step, clockEdge, hr.released, hr.resetSeen, hr.handshake, ha]

theorem step_idle {s : State} (hr : Running s) (ha : accepting s = false) :
    step s = .next (finishIdle (serveQueue s)) := by
  simp [step, clockEdge, hr.released, hr.resetSeen, hr.handshake, ha]

theorem step_reset {s : State} (hr : s.pins.rstN = false) : step s = .next (resetEdge s) := by
  simp [step, clockEdge, hr]

theorem run_zero (s : State) : Host.Core.run Sys2Proof.core 0 s = .next s := rfl

theorem run_succ_of_next {s t : State} (h : step s = .next t) (n : Nat) :
    Host.Core.run Sys2Proof.core (n + 1) s = Host.Core.run Sys2Proof.core n t := by
  have hr := Host.Core.run.eq_2 Sys2Proof.core s n
  rw [show Sys2Proof.core.step s = .next t from h] at hr
  exact hr

/-- A run of one edge more is a step and then the rest of the run. -/
theorem run_succ {n : Nat} {s u : State} (h : Host.Core.run Sys2Proof.core (n + 1) s = .next u) :
    ∃ t, step s = .next t ∧ Host.Core.run Sys2Proof.core n t = .next u := by
  have hr := Host.Core.run.eq_2 Sys2Proof.core s n
  cases hst : step s with
  | next t => exact ⟨t, rfl, (run_succ_of_next hst n).symm.trans h⟩
  | fault f =>
    rw [show Sys2Proof.core.step s = .fault f from hst] at hr
    cases hr.symm.trans h
  | refused f =>
    rw [show Sys2Proof.core.step s = .refused f from hst] at hr
    cases hr.symm.trans h

/-- What every step keeps, a run of any length keeps. -/
theorem run_keeps {P : State → Prop} (keep : ∀ s t, step s = .next t → P s → P t) (n : Nat) :
    ∀ s t : State, Host.Core.run Sys2Proof.core n s = .next t → P s → P t := by
  induction n with
  | zero =>
    intro s t h hs
    cases h
    exact hs
  | succ n ih =>
    intro s t h hs
    obtain ⟨s', h1, h2⟩ := run_succ h
    exact ih s' t h2 (keep s s' h1 hs)

end Sys2Proof.Machine
end

