-- ==== Sys2Proof/Laws/PerInstr.lean ====
section
/-! SUPPORT. Statements made of each instruction as syntax, one lemma per constructor. -/

namespace Sys2Proof.Laws

/-- R34: the word of an instruction has its OP code, its SLOT and its IDX in their fields and 0 in RSVD. -/
def FieldPlacement.Statement (i : Instr) : Prop :=
  opField (encode i) = i.opcode ∧ slotField (encode i) = i.slotOperand ∧ idxField (encode i) = i.idxOperand ∧
    rsvdField (encode i) = 0

/-- The four fields of a word put together from four fields. -/
theorem fields_of_append (j : IdxField) (k : SlotField) (op : BitVec 4) :
    opField (0#23 ++ j ++ k ++ op) = op ∧ slotField (0#23 ++ j ++ k ++ op) = k ∧
      idxField (0#23 ++ j ++ k ++ op) = j ∧ rsvdField (0#23 ++ j ++ k ++ op) = 0 := by
  revert j k op; decide

theorem FieldPlacement.info : FieldPlacement.Statement .info := fields_of_append _ _ _
theorem FieldPlacement.pext : FieldPlacement.Statement .pext := fields_of_append _ _ _
theorem FieldPlacement.pdep : FieldPlacement.Statement .pdep := fields_of_append _ _ _
theorem FieldPlacement.ppp (k : SlotField) : FieldPlacement.Statement (.ppp k) := fields_of_append _ _ _
theorem FieldPlacement.pextp (k : SlotField) : FieldPlacement.Statement (.pextp k) := fields_of_append _ _ _
theorem FieldPlacement.pdepp (k : SlotField) : FieldPlacement.Statement (.pdepp k) := fields_of_append _ _ _
theorem FieldPlacement.ppprd (k : SlotField) (j : IdxField) : FieldPlacement.Statement (.ppprd k j) :=
  fields_of_append _ _ _

end Sys2Proof.Laws
end

