-- ==== Sys2Proof/Tests/Slice0.lean ====
section
/-! SUPPORT. The model's own tests. Every expected value is written out from a table or a rule of the spec, named in the
comment beside it; the theorems named test_witness_… show a concrete state and operands that meet the hypotheses of a
statement of Certificates/Slice0/Obligations.lean. -/

namespace Sys2Proof.Tests

open Sys2Proof.Machine

/-- The build of spec 95 section 2.8 (CLMUL, NATIVE, ZERO_HIGH), with LATENCY 2 and MAX_INFLIGHT 8. -/
def build28 : Build := ⟨.clmul, .native, .zeroHigh, 1, 7⟩

/-- Ports that release reset, present no command and take responses or not. -/
def quiet (ready : Bool) : Pins := ⟨true, false, ⟨0, 0, 0⟩, ready⟩

/-- Ports that present a command. -/
def offering (w : CmdWord) (a b : Word) : Pins := ⟨true, true, ⟨w, a, b⟩, false⟩

/-- The post-reset state with a slot file and a command on the port, no response being taken. -/
def onPort (S : SlotFile) (w : CmdWord) (a b : Word) : State :=
  { State.reset with slots := S, build := build28, pins := offering w a b }

/-- The post-reset state with a response in flight that is due, and one that is not. -/
def busy (ready : Bool) : State :=
  { State.reset with
    build := build28
    pins := quiet ready
    upcoming := [quiet true]
    inflight := [⟨⟨.ok, 5⟩, 0⟩, ⟨⟨.empty, 0⟩, 3⟩] }

/-- The slot file in which slot 1 was built by `PPP s1, m`. -/
def slot1 (m : Word) : SlotFile := #v[none, some (ppp m), none, none]

/-- The response a step adds to the queue. -/
def answer : Host.Outcome State Fault Refusal → Option Response
  | .next t => t.inflight.getLast?.map (·.rsp)
  | .fault _ => none
  | .refused _ => none

/-- The slot file a step leaves. -/
def slotsAfter : Host.Outcome State Fault Refusal → Option SlotFile
  | .next t => some t.slots
  | .fault _ => none
  | .refused _ => none

/-! ## Well-formedness, and the decoder on words of spec 95 section 2.7 and spec 30 R42 -/

/-- The ill-formed term: PPPRD with the index 7 (R53). -/
theorem test_wellFormed_refuses_index_seven : (Instr.ppprd 3 7).wellFormed = false := by decide
theorem test_wellFormed_admits_index_six : (Instr.ppprd 3 6).wellFormed = true := by decide

theorem test_decode_info : decode 0b00000000000000000000000000000000 = .ok .info := by decide
theorem test_decode_pext : decode 0b00000000000000000000000000000001 = .ok .pext := by decide
theorem test_decode_pdep : decode 0b00000000000000000000000000000010 = .ok .pdep := by decide
theorem test_decode_ppp : decode 0b00000000000000000000000000100011 = .ok (.ppp 2) := by decide
theorem test_decode_pextp : decode 0b00000000000000000000000000010100 = .ok (.pextp 1) := by decide
theorem test_decode_pdepp : decode 0b00000000000000000000000000110101 = .ok (.pdepp 3) := by decide
theorem test_decode_ppprd : decode 0b00000000000000000000000110010110 = .ok (.ppprd 1 6) := by decide

theorem test_decode_illegal_words :
    decode 0x1F6 = .error .idxSeven ∧ decode 0x10 = .error .slotNotZero ∧ decode 0x41 = .error .idxNotZero ∧
      decode 0x22 = .error .slotNotZero ∧ decode 0x73 = .error .idxNotZero ∧ decode 0x44 = .error .idxNotZero ∧
      decode 0x7 = .error .reservedOp ∧ decode 0xF = .error .reservedOp ∧ decode 0x200 = .error .reservedBits ∧
      decode 0x80000001 = .error .reservedBits ∧ decode 0xFFFFFFFF = .error .reservedBits := by decide

/-- spec 30 R42: `PPPRD s1, P5` and `PPPRD s1, 6` are `0x00000196`; `PPP s2, m` is `0x00000023`. -/
theorem test_assemble_words :
    (assemble (.ppprdPlane 1 5)).word = 0x196 ∧ (assemble (.ppprd 1 6)).word = 0x196 ∧
      assemble (.ppp 2 9) = ⟨0x23, 0, 9⟩ := by decide

theorem test_decodeTableWord : decodeTableWord 32 0x196 = some (.ppprd 1 6) ∧ decodeTableWord 32 0x1F6 = none := by
  decide

/-! ## The functions, on vectors of spec 95 -/

/-- spec 95 section 2.1. -/
theorem test_prefix_xor : pxsBy .shiftXor 0x123456789ABCDEF0 = 0x1C279BAF132894A0 := by decide
theorem test_clmul : pxsBy .clmul 0x123456789ABCDEF0 = 0x1C279BAF132894A0 ∧ clmulLo 5 3 = 0xF := by decide

/-- spec 95 section 2.2, mask `0x0F00`. -/
theorem test_ppp_planes : (ppp 0xF00).planes = #v[0xAAAAAAAAAAAAA0AA, 0xCCCCCCCCCCCCC0CC, 0x0F0F0F0F0F0F00F0,
    0xF00FF00FF00FFF00, 0xFFF0000FFFF00000, 0xFFFFFFF000000000] := by decide

/-- spec 95 section 2.3: gather's stages in descending order, and without the pre-mask, give other values. -/
theorem test_gather_order_matters : gather 0x3FF (ppp 0xA) = 3 ∧ gatherRun (ppp 0xA) 0x3FF stages.reverse = 1 ∧
    stages.foldl (gatherStage (ppp 0xA)) 0x3FF = 7 := by decide

/-- spec 95 section 2.3: scatter's stages in ascending order, and without the pre-mask, give other values. -/
theorem test_scatter_order_matters : scatter 0x3FF (ppp 2) = 2 ∧
    scatterRun (ppp 2) 0x3FF stages = 0x8000000000000000 ∧
    stages.reverse.foldl (scatterStage (ppp 2)) 0x3FF = 0x0100000000000002 := by decide

/-- spec 95 section 2.6. -/
theorem test_popcount : popcount 0xFFFFFFFFFFFFFFFF = 64 ∧ popcount 0x123456789ABCDEF0 = 32 ∧ popcount 0 = 0 := by
  decide
theorem test_lowMask : lowMask 64 = 0xFFFFFFFFFFFFFFFF ∧ lowMask 63 = 0x7FFFFFFFFFFFFFFF ∧ lowMask 0 = 0 := by decide
theorem test_zeroHigh : zeroHigh 0x123456789ABCDEF0 32 = 0x9ABCDEF0 ∧ zeroHigh 5 64 = 5 := by decide

/-! ## One step of each command -/

/-- spec 95 section 2.8: INFO on an engine whose slot 2 was built. -/
theorem test_info : answer (step (onPort #v[none, none, some (ppp 1), none] 0x0 0 0)) = some ⟨.ok, 0x1040704⟩ := by
  decide

/-- spec 95 section 2.8: INFO with SLOT = 1 is ILLEGAL (section 2.7). -/
theorem test_info_illegal : answer (step (onPort SlotFile.cleared 0x10 0 0)) = some ⟨.illegal, 0⟩ := by decide

/-- spec 95 section 1.1. -/
theorem test_pext : answer (step (onPort SlotFile.cleared 0x1 0xFFFFFFFFFFFFFFFF 0x0F0F0F0F0F0F0F0F))
    = some ⟨.ok, 0x00000000FFFFFFFF⟩ := by decide

/-- spec 95 section 2.4: the selected bits at both ends of the word. -/
theorem test_pext_ends : answer (step (onPort SlotFile.cleared 0x1 0x8000000000000001 0x8000000000000001))
    = some ⟨.ok, 3⟩ := by decide

/-- spec 95 section 1.1: the mask of all ones, `p = 64`. -/
theorem test_pdep_all_ones : answer (step (onPort SlotFile.cleared 0x2 0x123456789ABCDEF0 0xFFFFFFFFFFFFFFFF))
    = some ⟨.ok, 0x123456789ABCDEF0⟩ := by decide

/-- spec 95 section 2.5: `p = 63` drops bit 63 of the value. -/
theorem test_pdep_drops : answer (step (onPort SlotFile.cleared 0x2 0x8000000000000000 0xFFFFFFFFFFFFFFFE))
    = some ⟨.ok, 0⟩ := by decide

/-- spec 95 section 2.8: PPP takes its mask from `cmd_b`, and ignores `cmd_a`. -/
theorem test_ppp : answer (step (onPort SlotFile.cleared 0x3 0xABCDEF 0x1)) = some ⟨.ok, 0⟩ ∧
    slotsAfter (step (onPort SlotFile.cleared 0x3 0xABCDEF 0x1)) = some #v[some (ppp 1), none, none, none] := by decide

/-- spec 95 section 2.8: PPP with IDX = 1 is ILLEGAL and builds nothing. -/
theorem test_ppp_illegal : answer (step (onPort SlotFile.cleared 0x43 0 0x1)) = some ⟨.illegal, 0⟩ ∧
    slotsAfter (step (onPort SlotFile.cleared 0x43 0 0x1)) = some SlotFile.cleared := by decide

/-- spec 95 section 2.8: PEXTP ignores `cmd_b`. -/
theorem test_pextp : answer (step (onPort (slot1 0xFF00FF00FF00FF00) 0x14 0x123456789ABCDEF0 0xFFFFFFFFFFFFFFFF))
    = some ⟨.ok, 0x12569ADE⟩ := by decide
theorem test_pextp_empty : answer (step (onPort SlotFile.cleared 0x4 0x1234 0)) = some ⟨.empty, 0⟩ := by decide

/-- spec 43 R74, the example. -/
theorem test_pdepp : answer (step (onPort (slot1 0xFF00FF00FF00FF00) 0x15 0x123456789ABCDEF0 0))
    = some ⟨.ok, 0x9A00BC00DE00F000⟩ := by decide
theorem test_pdepp_empty : answer (step (onPort SlotFile.cleared 0x35 0x1234 0)) = some ⟨.empty, 0⟩ := by decide

/-- spec 95 section 2.8: words 6 and 0 of a slot, EMPTY and ILLEGAL. -/
theorem test_ppprd : answer (step (onPort (slot1 0xFF00FF00FF00FF00) 0x196 0 0)) = some ⟨.ok, 0xFF00000000000000⟩ ∧
    answer (step (onPort (slot1 0xFF00FF00FF00FF00) 0x16 0 0)) = some ⟨.ok, 0xFF00FF00FF00FF00⟩ := by decide
theorem test_ppprd_errors : answer (step (onPort SlotFile.cleared 0x26 0 0)) = some ⟨.empty, 0⟩ ∧
    answer (step (onPort SlotFile.cleared 0x1E6 0 0)) = some ⟨.illegal, 0⟩ := by decide

/-! ## The clock edge -/

/-- R41 on the reset state itself: the word the host's check places is run by the next step, under any build. -/
theorem test_placed_word_runs : answer (step (State.reset.withFetchWord 32 0x14)) = some ⟨.empty, 0⟩ := by decide

/-- R89: a reset edge empties the queue and the slots. -/
theorem test_reset_edge : slotsAfter (step { busy true with pins := ⟨false, true, ⟨3, 0, 1⟩, true⟩ })
    = some SlotFile.cleared ∧ answer (step { busy true with pins := ⟨false, true, ⟨3, 0, 1⟩, true⟩ }) = none := by decide

/-- R31: with MAX_INFLIGHT = 2 and two commands in flight as the cycle starts, `cmd_ready` is 0 although one is
delivered at the edge: the command is held, not run. -/
theorem test_full_queue_holds :
    (match step { busy true with build := ⟨.clmul, .native, .select, 0, 1⟩, pins := ⟨true, true, ⟨3, 0, 1⟩, true⟩ } with
      | .next t => (t.waiting, t.delivered, t.inflight)
      | .fault _ => (none, [], [])
      | .refused _ => (none, [], []))
    = (some ⟨3, 0, 1⟩, [⟨.ok, 5⟩], [⟨⟨.empty, 0⟩, 2⟩]) := by decide

/-- R91 and R94: the two stops. -/
theorem test_stops :
    step { busy true with resetSeen := false } = .fault .beforeFirstReset ∧
      step { busy true with waiting := some ⟨0, 0, 0⟩ } = .refused .handshakeBroken := ⟨rfl, rfl⟩

/-! ## Witnesses -/

theorem test_witness_DecodeUndoesEncode : (Instr.ppprd 3 6).wellFormed = true := by decide
theorem test_witness_DecodedWordIsItsEncoding : decode 0x196 = .ok (.ppprd 1 6) := by decide
theorem test_witness_bit_positions : (0 : Nat) < 64 ∧ (63 : Nat) < 64 ∧ (1 : Nat) ≤ 63 ∧ (5 : Nat) < 6 := by decide

/-- R49 at the last iteration and the last position: the mask 0, whose unset bit 63 has the index 63. -/
theorem test_witness_CarriesAreLowOnesIndices :
    (pppCarry 0 5).getLsbD 63 = true ∧ (0 : Word).getLsbD 63 = false ∧ zerosBelow 0 63 = 63 := by decide
theorem test_witness_PppProperties :
    (∀ b, b < 63 → (0 : Word).getLsbD b = (0x8000000000000000 : Word).getLsbD b) ∧
      (0 : Word) ≠ 0x8000000000000000 := by decide

/-- R57, R70: a mask with both ends set, an index below its count, one from it on, a selected and an unset position. -/
theorem test_witness_gather_scatter_positions :
    1 < (setPositions 0x8000000000000001).length ∧ (setPositions 0x8000000000000001).length ≤ 2 ∧
      (0x8000000000000001 : Word).getLsbD 63 = true ∧ (0x8000000000000001 : Word).getLsbD 62 = false ∧
      ∀ k, k < 2 → (0xFF : Word).getLsbD k = (0x3 : Word).getLsbD k := by decide
theorem test_witness_GatherEdgeCases :
    (0xFFFFFFFFFFFFFFFF : Word).getLsbD 63 = true ∧ (0x8000000000000000 : Word).getLsbD 63 = true := by decide
theorem test_witness_low_mask_counts : (64 : BitVec 7).toNat ≤ 64 ∧ (0 : BitVec 7).toNat ≤ 64 := by decide
theorem test_witness_GatherAndScatterAreInverse : (0x120056009A00DE00 : Word) &&& 0xFF00FF00FF00FF00 =
    0x120056009A00DE00 := by decide

theorem test_witness_PppBuildsItsSlot : (0 : Fin 4) ≠ slotIndex 3 := by decide
theorem test_witness_valid_slot :
    (onPort (slot1 1) 0x14 7 0).slots[slotIndex 1] = some (ppp 1) ∧ slotValid (slot1 1) (slotIndex 1) = true := by decide
theorem test_witness_SlotCommandsReportErrors :
    State.reset.slots[slotIndex 2] = none ∧ (6 : IdxField) ≠ 7 ∧ (0 : IdxField) ≠ 7 := by decide
theorem test_witness_CommandFrame : ∀ k' : SlotField, Instr.ppp 1 = .ppp k' → slotIndex k' ≠ 0 := by decide
theorem test_witness_OnlyInfoShowsTheBuild :
    (⟨.shiftXor, .portable, .select, 1, 0⟩ : Build).latencyExtra = (onPort (slot1 1) 0 0 0).build.latencyExtra ∧
      Instr.ppp 1 ≠ .info ∧ (7 < 8 ∨ 10 < 7) ∧ (11 < 8 ∨ 10 < 11) := by decide
theorem test_witness_UnusedOperandsAreIgnored : usesA (.ppp 1) = false ∧ usesB (.pextp 1) = false := by decide
theorem test_witness_OneShotCommandsReadNoSlot :
    ∀ k : Fin 4, slotValid (slot1 1) k = slotValid (slot1 2) k := by decide
theorem test_witness_StoredStructureAgreesWithOneShot :
    SlotsCoherent (slot1 1) ∧ (onPort (slot1 1) 0x14 7 0).slots[slotIndex 1] = some (ppp 1) := by
  refine ⟨fun k p h => ?_, by decide⟩
  match k, h with
  | 0, h => cases h
  | 1, h => cases h; rfl
  | 2, h => cases h
  | 3, h => cases h

/-- Words that report ILLEGAL and EMPTY, and a decodable word naming a valid slot. -/
theorem test_witness_port_commands :
    decode (onPort (slot1 1) 0x1F6 0 0).pins.cmd.word = .error .idxSeven ∧
      decode (onPort SlotFile.cleared 0x14 0 0).pins.cmd.word = .ok (.pextp 1) ∧
      slotValid (onPort SlotFile.cleared 0x14 0 0).slots (slotIndex 1) = false ∧
      (∀ k : SlotField, (Instr.pextp 1 = .pextp k ∨ Instr.pextp 1 = .pdepp k ∨ ∃ j, Instr.pextp 1 = .ppprd k j) →
        slotValid (onPort (slot1 1) 0x14 0 0).slots (slotIndex k) = true) := by
  refine ⟨by decide, by decide, by decide, fun k h => ?_⟩
  rcases h with h | h | ⟨j, h⟩
  · cases h; decide
  · cases h
  · cases h

theorem test_witness_StepRunsThePresentedCommand :
    Running (onPort (slot1 1) 0x14 0 0) ∧ (onPort (slot1 1) 0x14 0 0).pins.cmdValid = true ∧
      (onPort (slot1 1) 0x14 0 0).inflight.length < (onPort (slot1 1) 0x14 0 0).build.maxInflight ∧
      decode (onPort (slot1 1) 0x14 0 0).pins.cmd.word = .ok (.pextp 1) := ⟨⟨rfl, rfl, rfl⟩, rfl, by decide, by decide⟩
theorem test_witness_StepRunsThePresentedCommand_illegal :
    Running (onPort (slot1 1) 0x7 0 0) ∧ (onPort (slot1 1) 0x7 0 0).pins.cmdValid = true ∧
      (onPort (slot1 1) 0x7 0 0).inflight.length < (onPort (slot1 1) 0x7 0 0).build.maxInflight ∧
      decode (onPort (slot1 1) 0x7 0 0).pins.cmd.word = .error .reservedOp := ⟨⟨rfl, rfl, rfl⟩, rfl, by decide, by decide⟩

/-- An edge that accepts, and one that does not. -/
theorem test_witness_AcceptanceRule :
    (∃ t, step (onPort (slot1 1) 0x14 0 0) = .next t) ∧ Running (onPort (slot1 1) 0x14 0 0) ∧
      (onPort (slot1 1) 0x14 0 0).pins.cmdValid = true ∧ cmdReady (onPort (slot1 1) 0x14 0 0) = true ∧
      (∃ t, step (busy true) = .next t) ∧ Running (busy true) ∧ (busy true).pins.cmdValid = false :=
  ⟨⟨_, rfl⟩, ⟨rfl, rfl, rfl⟩, rfl, by decide, ⟨_, rfl⟩, ⟨rfl, rfl, rfl⟩, rfl⟩
theorem test_witness_ResponsePortShowsTheHead :
    (busy true).resetSeen = true ∧ (outputs (busy true)).rspValid = true ∧
      (busy true).inflight = [⟨⟨.ok, 5⟩, 0⟩, ⟨⟨.empty, 0⟩, 3⟩] := ⟨rfl, rfl, rfl⟩
theorem test_witness_PresentedResponseIsStable :
    Running (busy false) ∧ rspValid (busy false) = true ∧ (busy false).pins.rspReady = false ∧
      ∃ t, step (busy false) = .next t ∧ t.pins.rstN = true := ⟨⟨rfl, rfl, rfl⟩, rfl, rfl, _, rfl, rfl⟩

/-- An edge that delivers, and one that does not. -/
theorem test_witness_QueueMovesInOrder :
    Running (busy true) ∧ (∃ t, step (busy true) = .next t) ∧ (busy true).pins.rspReady = true ∧
      Running (busy false) ∧ (∃ t, step (busy false) = .next t) ∧ (busy false).pins.rspReady = false :=
  ⟨⟨rfl, rfl, rfl⟩, ⟨_, rfl⟩, rfl, ⟨rfl, rfl, rfl⟩, ⟨_, rfl⟩, rfl⟩

/-- An edge that accepts a command with LATENCY = 2, and one edge after it. -/
theorem test_witness_NoResponseBeforeLatency :
    ∃ t u, step { onPort (slot1 1) 0x14 0 0 with upcoming := [quiet true] } = .next t ∧
      1 < (onPort (slot1 1) 0x14 0 0).build.latency ∧ Host.Core.run Sys2Proof.core 1 t = .next u :=
  ⟨_, _, rfl, by decide, rfl⟩

/-- A head that has one edge to wait, with one more edge listed. -/
def soon : State := { busy true with inflight := [⟨⟨.ok, 5⟩, 1⟩] }

theorem test_witness_HeadIsPresentedAfterItsWait :
    soon.resetSeen = true ∧ soon.inflight = [⟨⟨.ok, 5⟩, 1⟩] ∧ 1 ≤ soon.upcoming.length ∧
      (∀ p ∈ soon.pins :: soon.upcoming, p.rstN = true) ∧
      ∃ t, Host.Core.run Sys2Proof.core 1 soon = .next t ∧ rspPort t = some ⟨.ok, 5⟩ :=
  ⟨rfl, rfl, by decide, by decide, _, rfl, rfl⟩

/-- Two edges in a row that accept `PPP s1` and then a command on slot 1. -/
def pppThen (w : CmdWord) : State := { onPort SlotFile.cleared 0x13 0 0xF0 with upcoming := [offering w 7 0] }

theorem test_witness_PppIsSeenByTheNextCommand :
    Running (pppThen 0x14) ∧ accepting (pppThen 0x14) = true ∧ decode (pppThen 0x14).pins.cmd.word = .ok (.ppp 1) ∧
      ∃ t u, step (pppThen 0x14) = .next t ∧ Running t ∧ accepting t = true ∧ step t = .next u ∧
        decode t.pins.cmd.word = .ok (.pextp 1) :=
  ⟨⟨rfl, rfl, rfl⟩, rfl, by decide, _, _, rfl, ⟨rfl, rfl, rfl⟩, rfl, rfl, by decide⟩
theorem test_witness_PppIsSeenByTheNextCommand_pdepp_ppprd :
    (∃ t u, step (pppThen 0x15) = .next t ∧ Running t ∧ accepting t = true ∧ step t = .next u ∧
      decode t.pins.cmd.word = .ok (.pdepp 1)) ∧
    ∃ t u, step (pppThen 0x16) = .next t ∧ Running t ∧ accepting t = true ∧ step t = .next u ∧
      decode t.pins.cmd.word = .ok (.ppprd 1 0) :=
  ⟨⟨_, _, rfl, ⟨rfl, rfl, rfl⟩, rfl, rfl, by decide⟩, _, _, rfl, ⟨rfl, rfl, rfl⟩, rfl, rfl, by decide⟩

/-- A reset edge after which the host releases reset. -/
theorem test_witness_ResetEdgeRule :
    { busy true with pins := ⟨false, true, ⟨3, 0, 1⟩, true⟩ }.pins.rstN = false ∧
      ∃ t, step { busy true with pins := ⟨false, true, ⟨3, 0, 1⟩, true⟩ } = .next t ∧ t.pins.rstN = true :=
  ⟨rfl, _, rfl, rfl⟩
theorem test_witness_PortsAdvanceAndBuildStays :
    (∃ t, step (busy true) = .next t) ∧ (busy true).upcoming = [quiet true] ∧
      (∃ t, step (onPort (slot1 1) 0x14 0 0) = .next t) ∧ (onPort (slot1 1) 0x14 0 0).upcoming = [] :=
  ⟨⟨_, rfl⟩, rfl, ⟨_, rfl⟩, rfl⟩

/-- The invariant, at a state whose next edge accepts a command. -/
theorem test_witness_StepKeepsInvariant :
    (onPort SlotFile.cleared 0x13 0 1).Inv ∧ ∃ t, step (onPort SlotFile.cleared 0x13 0 1) = .next t :=
  ⟨⟨rfl, Nat.zero_le _, rfl⟩, _, rfl⟩

/-- A run of one edge from the post-reset state that is complete: nothing was presented. -/
theorem test_witness_RunIsSequential :
    PostReset State.reset ∧ ∃ t, Host.Core.run Sys2Proof.core 1 State.reset = .next t ∧ RunComplete t :=
  ⟨⟨rfl, rfl, rfl, rfl, rfl⟩, _, rfl, rfl⟩
theorem test_witness_SlotsStayCoherent :
    SlotsCoherent SlotFile.cleared ∧ (∃ t, step (onPort SlotFile.cleared 0x13 0 1) = .next t) ∧
      ∃ t, exec (.ppp 1) (onPort SlotFile.cleared 0x13 0 1) = .next t ∧
        t.slots[(1 : Fin 4)] ≠ (onPort SlotFile.cleared 0x13 0 1).slots[(1 : Fin 4)] := by
  refine ⟨fun k p h => ?_, ⟨_, rfl⟩, _, rfl, by decide⟩
  match k, h with
  | 0, h => cases h
  | 1, h => cases h
  | 2, h => cases h
  | 3, h => cases h
theorem test_witness_OnlyResetClearsValid :
    (∃ t, step (onPort (slot1 1) 0x14 0 0) = .next t) ∧ slotValid (onPort (slot1 1) 0x14 0 0).slots 1 = true :=
  ⟨⟨_, rfl⟩, rfl⟩

end Sys2Proof.Tests
end

section
/-! SUPPORT. What one command does to the slot file and to the queue, said once: `exec` against the case table of R41,
and the slot file around a step. -/

namespace Sys2Proof.Machine

/-! ## Slot files -/

/-- A slot after a write to a slot, the same or another (R7). -/
theorem set_slot_getElem (S : SlotFile) (k k' : Fin 4) (o : Option PppStruct) :
    (S.set k o)[k'] = if k = k' then o else S[k'] := by
  simp [Vector.getElem_set, Fin.ext_iff]

theorem cleared_getElem (k : Fin 4) : SlotFile.cleared[k] = none := by revert k; decide

@[simp] theorem slotValid_cleared (k : Fin 4) : slotValid SlotFile.cleared k = false := by
  rw [slotValid, cleared_getElem, Option.isSome_none]

/-- Building a slot clears no VALID bit. -/
theorem slotValid_set_some {S : SlotFile} (k : Fin 4) {k' : Fin 4} (p : PppStruct) (h : slotValid S k' = true) :
    slotValid (S.set k (some p)) k' = true := by
  rw [slotValid, set_slot_getElem]
  split
  · rfl
  · exact h

theorem slotsCoherent_cleared : SlotsCoherent SlotFile.cleared := fun k p h => by
  rw [cleared_getElem] at h
  cases h

/-- Writing a whole PPP structure keeps the slots coherent (R13, R52). -/
theorem SlotsCoherent.set_ppp {S : SlotFile} (hS : SlotsCoherent S) (k : Fin 4) (mask : Word) :
    SlotsCoherent (S.set k (some (ppp mask))) := fun k' p h => by
  rw [set_slot_getElem] at h
  split at h
  · cases h; rfl
  · exact hS k' p h

/-! ## A command against `EXEC` of R41 -/

/-- A command that completes answers exactly the state `CompletesWith` describes. -/
theorem CompletesWith.eq_of_next {o : Host.Outcome State Fault Refusal} {s u : State} {S : SlotFile} {r : Response}
    (hc : CompletesWith o s S r) (h : o = .next u) :
    u = { s with slots := S, inflight := s.inflight ++ [⟨r, responseWait s⟩] } :=
  Host.Outcome.next.inj (h.symm.trans hc)

theorem respondFromSlot_completesWith (s : State) (k : SlotField) (f : PppStruct → Word) :
    CompletesWith (.next (respondFromSlot s k f)) s (execOnSlot s.slots k f).1 (execOnSlot s.slots k f).2 := by
  cases h : s.slots[slotIndex k] with
  | none => simp only [respondFromSlot_none h, execOnSlot, h]; rfl
  | some p => simp only [respondFromSlot_some h, execOnSlot, h]; rfl

/-- R41: a decoded command does what the case table of `EXEC` says and nothing else. -/
theorem exec_completesWith (i : Instr) (s : State) :
    CompletesWith (exec i s) s (execDecoded s.build s.slots s.pins.cmd.a s.pins.cmd.b i).1
      (execDecoded s.build s.slots s.pins.cmd.a s.pins.cmd.b i).2 := by
  cases i with
  | info => rfl
  | pext => rfl
  | pdep => rfl
  | ppp k => rfl
  | pextp k => exact respondFromSlot_completesWith s k _
  | pdepp k => exact respondFromSlot_completesWith s k _
  | ppprd k j =>
    simp only [exec, execPpprd, execDecoded]
    cases wordIndex j with
    | none => rfl
    | some r => exact respondFromSlot_completesWith s k _

/-- R41: the command on the port does what `EXEC` says and nothing else. -/
theorem runPort_completesWith (s : State) :
    CompletesWith (runPort s) s (execCommand s.build s.slots s.pins.cmd).1
      (execCommand s.build s.slots s.pins.cmd).2 := by
  cases h : decode s.pins.cmd.word with
  | error e => simp only [runPort_error h, execCommand, h]; rfl
  | ok i => simpa only [runPort_ok h, execCommand, h] using exec_completesWith i s

/-! ## The slot file around a step -/

/-- What the command on the port does to the slot file: nothing, or PPP's write of `PPP(B)`. -/
theorem runPort_slots_cases {s u : State} (h : runPort s = .next u) :
    u.slots = s.slots ∨ ∃ k : SlotField, u.slots = s.slots.set (slotIndex k) (some (ppp s.pins.cmd.b)) := by
  cases hd : decode s.pins.cmd.word with
  | error e =>
    cases (runPort_error hd).symm.trans h
    exact .inl rfl
  | ok i =>
    rw [runPort_ok hd] at h
    rcases exec_cases i s with ⟨st, d, he⟩ | ⟨k, -, he⟩
    · cases he.symm.trans h
      exact .inl rfl
    · cases he.symm.trans h
      exact .inr ⟨k, rfl⟩

/-- What a step does to the slot file: reset clears it, and every other edge leaves it or writes one slot whole. -/
theorem step_slots_cases {s t : State} (h : step s = .next t) :
    (s.pins.rstN = false ∧ t.slots = SlotFile.cleared) ∨
      (s.pins.rstN = true ∧
        (t.slots = s.slots ∨ ∃ k : SlotField, t.slots = s.slots.set (slotIndex k) (some (ppp s.pins.cmd.b)))) := by
  rcases step_cases h with ⟨hr, rfl⟩ | ⟨run, -, rfl⟩ | ⟨run, -, u, hu, rfl⟩
  · exact .inl ⟨hr, rfl⟩
  · exact .inr ⟨run.released, .inl rfl⟩
  · have slots := runPort_slots_cases hu
    exact .inr ⟨run.released, slots⟩

end Sys2Proof.Machine
end

section
/-! SUPPORT. The invariant of the machine (R18, R26) under each part of an edge: reset, the queue's service, an accepted
command, and the end of an edge that accepts none. -/

namespace Sys2Proof.Machine

/-- R26: one more command of a run is one more step of `EXEC`. -/
theorem runCommands_concat (b : Build) (cs : List Command) (c : Command) :
    runCommands b (cs ++ [c]) = runStep b (runCommands b cs) c := by
  simp [runCommands]

/-- An accepted command meets a queue with room (R31). -/
theorem length_lt_of_accepting {s : State} (h : accepting s = true) : s.inflight.length < s.build.maxInflight := by
  simp only [accepting, cmdReady, Bool.and_eq_true, fewerThan_iff] at h
  exact h.2.2

theorem length_serveQueue_le (s : State) : (serveQueue s).inflight.length ≤ s.inflight.length := by simp

theorem inv_resetEdge (s : State) : (resetEdge s).Inv := ⟨rfl, Nat.zero_le _, rfl⟩

theorem State.Inv.serveQueue {s : State} (h : s.Inv) : (serveQueue s).Inv where
  resetSeen := h.resetSeen
  bounded := (length_serveQueue_le s).trans h.bounded
  inOrder := h.inOrder.trans (by rw [responsesOf_serveQueue, serveQueue_slots])

/-- The end of an edge that accepts no command touches nothing the invariant speaks of. -/
theorem State.Inv.finishIdle {s : State} (h : s.Inv) : (finishIdle s).Inv := ⟨h.resetSeen, h.bounded, h.inOrder⟩

/-- An accepted command extends the sequential run by one step of `EXEC`, where the queue has room. -/
theorem State.Inv.finishAccept {s u : State} (h : s.Inv) (room : s.inflight.length < s.build.maxInflight)
    (hu : runPort s = .next u) : (finishAccept u).Inv := by
  obtain rfl := (runPort_completesWith s).eq_of_next hu
  refine ⟨h.resetSeen, ?_, ?_⟩
  · simpa [QueueBounded] using room
  · have run : runCommands s.build s.accepted = (s.slots, responsesOf s) := h.inOrder
    simp [InOrder, runCommands_concat, run, runStep, responsesOf]

end Sys2Proof.Machine
end

section
/-! The obligations of the state's family (spec file 10), settled. -/

namespace Sys2Proof.Machine

/-- Settles O56: reset starts a run of no command, serving the queue keeps the run's responses, and an accepted command
finds room and is one more step of `EXEC`. -/
theorem stepKeepsInvariant : Obligations.StepKeepsInvariant := by
  intro s t hs h
  rcases step_cases h with ⟨-, rfl⟩ | ⟨-, -, rfl⟩ | ⟨-, ha, u, hu, rfl⟩
  · exact inv_resetEdge s
  · exact hs.serveQueue.finishIdle
  · exact hs.serveQueue.finishAccept ((length_serveQueue_le s).trans_lt (length_lt_of_accepting ha)) hu

/-- Settles O29, by the two things a command can do: respond, or write PPP's slot and respond. -/
theorem commandFrame : Obligations.CommandFrame := by
  intro i s
  rcases exec_cases i s with ⟨st, d, h⟩ | ⟨k, rfl, h⟩
  · exact ⟨s.slots, ⟨st, d⟩, h, fun _ _ => rfl⟩
  · refine ⟨s.slots.set (slotIndex k) (some (ppp s.pins.cmd.b)), ⟨.ok, 0⟩, h, fun k' hk => ?_⟩
    rw [set_slot_getElem, if_neg (hk k rfl)]

/-- Settles O58: the one write of a slot is `PPP(B)` whole, whose mask is `B`. -/
theorem slotsStayCoherent : Obligations.SlotsStayCoherent := by
  refine ⟨slotsCoherent_cleared, fun s t hs h => ?_, fun i s t k h hne => ?_⟩
  · rcases step_slots_cases h with ⟨-, ht⟩ | ⟨-, ht | ⟨k, ht⟩⟩
    · exact ht ▸ slotsCoherent_cleared
    · exact ht ▸ hs
    · exact ht ▸ hs.set_ppp (slotIndex k) _
  · rcases exec_cases i s with ⟨st, d, he⟩ | ⟨k', rfl, he⟩
    · cases he.symm.trans h
      exact absurd rfl hne
    · cases he.symm.trans h
      rw [respond_slots, writeSlot_slots, set_slot_getElem] at hne ⊢
      by_cases hk : slotIndex k' = k
      · exact ⟨⟨k', rfl, hk⟩, if_pos hk⟩
      · exact absurd (if_neg hk) hne

/-- Settles O59: reset clears every slot, and every other edge leaves the slots or builds one. -/
theorem onlyResetClearsValid : Obligations.OnlyResetClearsValid := by
  intro s t k h hv
  rcases step_slots_cases h with ⟨hr, ht⟩ | ⟨hr, ht⟩
  · simp [ht, hr]
  · have kept : slotValid t.slots k = true := by
      rcases ht with ht | ⟨k', ht⟩
      · rw [ht, hv]
      · rw [ht, slotValid_set_some _ _ hv]
    simp [kept, hr]

/-- Settles O54: the fields of the reset state are those of R19, and no slot of the cleared file is valid. -/
theorem resetStateIsPostReset : Obligations.ResetStateIsPostReset :=
  ⟨⟨rfl, rfl, rfl, rfl, rfl⟩, slotValid_cleared, rfl, rfl⟩

end Sys2Proof.Machine
end

section
/-! SUPPORT. `EXEC` of R41 on the slot file, said once: what each kind of command answers and leaves, and that a command
run again finds nothing to change; then an edge that accepts, and a run of several commands. -/

namespace Sys2Proof.Machine

/-! ## Commands and the slot file -/

theorem respond_withSlots (s : State) (S : SlotFile) (st : Status) (d : Word) :
    respond (withSlots s S) st d = withSlots (respond s st d) S := rfl

/-- The INFO word reads the VALID bits of the slot file and nothing else of it (R14, R75). -/
theorem infoWord_congr (b : Build) {S T : SlotFile} (h : ∀ k : Fin 4, slotValid S k = slotValid T k) :
    infoWord b S = infoWord b T := by
  simp only [infoWord, validBits, h]

/-- A command that reads a slot writes none (R41). -/
@[simp] theorem execOnSlot_fst (S : SlotFile) (k : SlotField) (f : PppStruct → Word) :
    (execOnSlot S k f).1 = S := by
  unfold execOnSlot
  split <;> rfl

theorem execOnSlot_of_some {S : SlotFile} {k : SlotField} {p : PppStruct} (h : S[slotIndex k] = some p)
    (f : PppStruct → Word) : execOnSlot S k f = (S, ⟨.ok, f p⟩) := by
  simp only [execOnSlot, h]

theorem execCommand_of_ok {b : Build} {S : SlotFile} {c : Command} {i : Instr} (h : decode c.word = .ok i) :
    execCommand b S c = execDecoded b S c.a c.b i := by
  simp only [execCommand, h]

theorem execCommand_of_error {b : Build} {S : SlotFile} {c : Command} {e : Illegal} (h : decode c.word = .error e) :
    execCommand b S c = (S, ⟨.illegal, 0⟩) := by
  simp only [execCommand, h]

/-- Only PPP writes the slot file (R41). -/
theorem execDecoded_fst_cases (b : Build) (S : SlotFile) (A B : Word) (i : Instr) :
    (execDecoded b S A B i).1 = S ∨ ∃ k, i = .ppp k := by
  cases i with
  | info => exact .inl rfl
  | pext => exact .inl rfl
  | pdep => exact .inl rfl
  | ppp k => exact .inr ⟨k, rfl⟩
  | pextp k => exact .inl (execOnSlot_fst S k _)
  | pdepp k => exact .inl (execOnSlot_fst S k _)
  | ppprd k j =>
    rw [execDecoded]
    split
    · exact .inl rfl
    · exact .inl (execOnSlot_fst S k _)

/-- A command run again on the slot file it left gives the same slot file and response (R24): PPP writes the same
structure once more, and every other command left the slots alone. -/
theorem execDecoded_idem (b : Build) (S : SlotFile) (A B : Word) (i : Instr) :
    execDecoded b (execDecoded b S A B i).1 A B i = execDecoded b S A B i := by
  rcases execDecoded_fst_cases b S A B i with h | ⟨k, rfl⟩
  · rw [h]
  · simp [execDecoded]

theorem execCommand_idem (b : Build) (S : SlotFile) (c : Command) :
    execCommand b (execCommand b S c).1 c = execCommand b S c := by
  cases h : decode c.word with
  | error e => simp only [execCommand_of_error h]
  | ok i => simp only [execCommand_of_ok h, execDecoded_idem]

/-! ## An edge that accepts -/

/-- An edge that accepts a command leaves the slot file of `EXEC` on it (R31). -/
theorem step_slots_of_accepting {s t : State} (hs : Running s) (ha : accepting s = true) (h : step s = .next t) :
    t.slots = (execCommand s.build s.slots s.pins.cmd).1 := by
  rw [step_accept hs ha, runPort_completesWith] at h
  cases h
  rfl

/-- An edge that accepts a command adds the response of `EXEC` on it to the run's responses (R31). -/
theorem step_responsesOf_of_accepting {s t : State} (hs : Running s) (ha : accepting s = true)
    (h : step s = .next t) :
    responsesOf t = responsesOf s ++ [(execCommand s.build s.slots s.pins.cmd).2] := by
  rw [step_accept hs ha, runPort_completesWith] at h
  cases h
  rw [← responsesOf_serveQueue s]
  simp [responsesOf]

/-! ## Runs of commands -/

/-- A run of commands has one response per command (R26). -/
theorem length_runCommands (b : Build) (cs : List Command) : (runCommands b cs).2.length = cs.length := by
  induction cs using List.reverseRecOn with
  | nil => rfl
  | append_singleton cs c ih => simp [runCommands_concat, runStep, ih]

/-- The invariant holds of every post-reset state: the run of no command. -/
theorem PostReset.inv {s : State} (h : PostReset s) : s.Inv where
  resetSeen := h.resetSeen
  bounded := by simp [QueueBounded, h.inflight]
  inOrder := by simp [InOrder, runCommands, responsesOf, h.accepted, h.slots, h.inflight, h.delivered]

end Sys2Proof.Machine
end

section
/-! The obligations of the memory's family (spec file 20), settled. -/

namespace Sys2Proof.Machine

/-- Settles O33: the responses of PEXT and PDEP are made of the operands, that of INFO of the VALID bits. -/
theorem oneShotCommandsReadNoSlot : Obligations.OneShotCommandsReadNoSlot := by
  refine fun s S =>
    ⟨congrArg _ (respond_withSlots s S .ok _), congrArg _ (respond_withSlots s S .ok _), fun h => ?_⟩
  have word : infoWord s.build S = infoWord s.build s.slots := infoWord_congr s.build h
  calc exec .info (withSlots s S)
      = .next (respond (withSlots s S) .ok (infoWord s.build S)) := rfl
    _ = .next (withSlots (respond s .ok (infoWord s.build s.slots)) S) := by rw [word, respond_withSlots]
    _ = mapNext (withSlots · S) (exec .info s) := rfl

/-- Settles O41: the port runs `EXEC`, and `EXEC` is idempotent on the slot file. -/
theorem commandsAreIdempotent : Obligations.CommandsAreIdempotent := by
  intro s
  have first := runPort_completesWith s
  refine ⟨_, _, _, first, first, ?_⟩
  rw [CompletesWith, runPort_completesWith, execCommand_idem]

/-- Settles O50: the first edge leaves `PPP(B)` in the slot, and the response of the second edge's command is made of
what the slot then holds. -/
theorem pppIsSeenByTheNextCommand : Obligations.PppIsSeenByTheNextCommand := by
  intro s t u k hs has hd hst ht hat htu
  have built : t.slots[slotIndex k] = some (ppp s.pins.cmd.b) := by
    rw [step_slots_of_accepting hs has hst, execCommand_of_ok hd, execDecoded, set_slot_getElem, if_pos rfl]
  have last : (responsesOf u).getLast? = some (execCommand t.build t.slots t.pins.cmd).2 := by
    rw [step_responsesOf_of_accepting ht hat htu, List.getLast?_concat]
  refine ⟨fun h => ?_, fun h => ?_, fun h => ?_⟩
  · rw [last, execCommand_of_ok h, execDecoded, execOnSlot_of_some built]
  · rw [last, execCommand_of_ok h, execDecoded, execOnSlot_of_some built]
  · have mask : wordIndex 0 = some 0 := rfl
    rw [last, execCommand_of_ok h, execDecoded, mask]
    simp only [execOnSlot_of_some built]
    rfl

/-- Settles O57: the post-reset state meets the invariant and every step keeps it, so the run's responses are those of
`EXEC` in acceptance order, the delivered ones standing first. -/
theorem runIsSequential : Obligations.RunIsSequential := by
  intro n s t hs h
  have inv : t.Inv := run_keeps (fun s t h hs => stepKeepsInvariant s t hs h) n s t h hs.inv
  have run : runCommands t.build t.accepted = (t.slots, responsesOf t) := inv.inOrder
  refine ⟨run, ?_, ?_, fun complete => ?_⟩
  · rw [← length_runCommands t.build t.accepted, run]
  · rw [run, responsesOf, List.take_left]
  · have empty : t.inflight = [] := complete
    simp [run, responsesOf, empty]

end Sys2Proof.Machine
end

section
/-! SUPPORT. The decoder and the encoder (R34, R38) against each other, said once: the four fields of a word, what each
part of the decoder accepts, and that a decoded instruction and its word determine each other. -/

namespace Sys2Proof

/-! ## Words and their fields -/

/-- A word is its four fields put together (R34). -/
theorem append_fields (w : CmdWord) : rsvdField w ++ idxField w ++ slotField w ++ opField w = w := by
  ext i hi
  simp only [rsvdField, idxField, slotField, opField, BitVec.getElem_append, BitVec.getElem_extractLsb']
  split_ifs <;> (rw [BitVec.getLsbD_eq_getElem (by omega)]; congr 1; omega)

/-- R42: a word with RSVD 0 by the formula of its other fields. At every bit both sides read the same field. -/
theorem append_eq_or_shifts (j : IdxField) (k : SlotField) (op : BitVec 4) :
    0#23 ++ j ++ k ++ op = op.setWidth 32 ||| k.setWidth 32 <<< 4 ||| j.setWidth 32 <<< 6 := by
  apply BitVec.eq_of_getLsbD_eq
  intro i hi
  simp only [BitVec.getLsbD_append, BitVec.getLsbD_or, BitVec.getLsbD_shiftLeft, BitVec.getLsbD_setWidth,
    BitVec.getLsbD_zero]
  grind

/-- R42: the command word of an instruction by the formula of its fields. -/
theorem encode_eq_or_shifts (i : Instr) :
    encode i = i.opcode.setWidth 32 ||| i.slotOperand.setWidth 32 <<< 4 ||| i.idxOperand.setWidth 32 <<< 6 :=
  append_eq_or_shifts _ _ _

theorem encode_of_idx_zero {i : Instr} (h : i.idxOperand = 0) :
    encode i = i.opcode.setWidth 32 ||| i.slotOperand.setWidth 32 <<< 4 := by
  simp [encode_eq_or_shifts, h]

/-- An index 0..6 fills the IDX field without loss. -/
theorem setWidth_ofNat_idx (j : Fin 7) : (BitVec.ofNat 3 j.val).setWidth 32 = BitVec.ofNat 32 j.val := by
  revert j; decide

/-! ## What decodes -/

theorem decodePlain_eq_ok {i i' : Instr} {k : SlotField} {j : IdxField} (h : decodePlain i k j = .ok i') :
    i' = i ∧ k = 0 ∧ j = 0 := by
  unfold decodePlain at h
  split_ifs at h with hk hj
  cases h
  exact ⟨rfl, not_not.1 hk, not_not.1 hj⟩

theorem decodeSlot_eq_ok {i i' : Instr} {j : IdxField} (h : decodeSlot i j = .ok i') : i' = i ∧ j = 0 := by
  unfold decodeSlot at h
  split_ifs at h with hj
  cases h
  exact ⟨rfl, not_not.1 hj⟩

theorem decodeRead_eq_ok {i : Instr} {k : SlotField} {j : IdxField} (h : decodeRead k j = .ok i) :
    i = .ppprd k j ∧ idxNamesWord j = true := by
  unfold decodeRead at h
  split_ifs at h with hj
  cases h
  exact ⟨rfl, hj⟩

/-- The case table of `DECODE` reads off an instruction the fields it holds (R37, R38). -/
theorem decodeOp_eq_ok {op : BitVec 4} {k : SlotField} {j : IdxField} {i : Instr} (h : decodeOp op k j = .ok i) :
    i.opcode = op ∧ i.slotOperand = k ∧ i.idxOperand = j ∧ i.wellFormed = true := by
  unfold decodeOp at h
  split_ifs at h with h0 h1 h2 h3 h4 h5 h6
  · obtain ⟨rfl, rfl, rfl⟩ := decodePlain_eq_ok h
    exact ⟨h0.symm, rfl, rfl, rfl⟩
  · obtain ⟨rfl, rfl, rfl⟩ := decodePlain_eq_ok h
    exact ⟨h1.symm, rfl, rfl, rfl⟩
  · obtain ⟨rfl, rfl, rfl⟩ := decodePlain_eq_ok h
    exact ⟨h2.symm, rfl, rfl, rfl⟩
  · obtain ⟨rfl, rfl⟩ := decodeSlot_eq_ok h
    exact ⟨h3.symm, rfl, rfl, rfl⟩
  · obtain ⟨rfl, rfl⟩ := decodeSlot_eq_ok h
    exact ⟨h4.symm, rfl, rfl, rfl⟩
  · obtain ⟨rfl, rfl⟩ := decodeSlot_eq_ok h
    exact ⟨h5.symm, rfl, rfl, rfl⟩
  · obtain ⟨rfl, hj⟩ := decodeRead_eq_ok h
    exact ⟨h6.symm, rfl, rfl, hj⟩

/-- The fields of a well-formed instruction decode to it (R37, R38). -/
theorem decodeOp_fields {i : Instr} (h : i.wellFormed = true) :
    decodeOp i.opcode i.slotOperand i.idxOperand = .ok i := by
  cases i with
  | info => rfl
  | pext => rfl
  | pdep => rfl
  | ppp k => rfl
  | pextp k => rfl
  | pdepp k => rfl
  | ppprd k j => exact if_pos h

/-- The word of a well-formed instruction decodes to it. -/
theorem decode_encode {i : Instr} (h : i.wellFormed = true) : decode (encode i) = .ok i := by
  obtain ⟨hop, hslot, hidx, hrsvd⟩ := Laws.fields_of_append i.idxOperand i.slotOperand i.opcode
  rw [encode, decode, hop, hslot, hidx, hrsvd, if_neg (not_not.2 rfl), decodeOp_fields h]

/-- A word that decodes is the word of a well-formed instruction. -/
theorem encode_of_decode {w : CmdWord} {i : Instr} (h : decode w = .ok i) : encode i = w ∧ i.wellFormed = true := by
  unfold decode at h
  split_ifs at h with hrsvd
  obtain ⟨hop, hslot, hidx, wf⟩ := decodeOp_eq_ok h
  have word : rsvdField w ++ idxField w ++ slotField w ++ opField w = w := append_fields w
  rw [not_not.1 hrsvd] at word
  exact ⟨by rw [encode, hop, hslot, hidx]; exact word, wf⟩

/-! ## The well-formed instructions -/

/-- The commands on slot `k`: PPPRD with each of its seven indices (R37, R38). -/
def slotInstrs (k : SlotField) : List Instr :=
  [.ppp k, .pextp k, .pdepp k] ++ [0, 1, 2, 3, 4, 5, 6].map (Instr.ppprd k)

/-- The rows of R37's table with every SLOT and every IDX that R38 allows. -/
def wellFormedInstrs : List Instr := [.info, .pext, .pdep] ++ [0, 1, 2, 3].flatMap slotInstrs

theorem mem_wellFormedInstrs (i : Instr) : i ∈ wellFormedInstrs ↔ i.wellFormed = true := by
  cases i with
  | info => decide
  | pext => decide
  | pdep => decide
  | ppp k => revert k; decide
  | pextp k => revert k; decide
  | pdepp k => revert k; decide
  | ppprd k j => revert k j; decide

theorem nodup_wellFormedInstrs : wellFormedInstrs.Nodup := by decide

/-- The command words that decode are the words of the well-formed instructions. -/
theorem setOf_decodes : { w : CmdWord | ∃ i, decode w = .ok i } = encode '' { i | i.wellFormed = true } := by
  ext w
  constructor
  · rintro ⟨i, h⟩
    obtain ⟨word, wf⟩ := encode_of_decode h
    exact ⟨i, wf, word⟩
  · rintro ⟨i, wf, rfl⟩
    exact ⟨i, decode_encode wf⟩

/-- Two well-formed instructions never share a word. -/
theorem encode_injOn : Set.InjOn encode { i | i.wellFormed = true } := fun _ hi _ hi' h =>
  Except.ok.inj ((decode_encode hi).symm.trans ((congrArg decode h).trans (decode_encode hi')))

theorem ncard_wellFormed : Set.ncard { i : Instr | i.wellFormed = true } = 43 := by
  have listed : { i : Instr | i.wellFormed = true } = ↑wellFormedInstrs.toFinset := by
    ext i
    simp [mem_wellFormedInstrs]
  rw [listed, Set.ncard_coe_finset, List.toFinset_card_of_nodup nodup_wellFormedInstrs]
  rfl

end Sys2Proof
end

section
/-! SUPPORT. The ports and the queue around one edge (R31, R32), said once: which operands a command reads,
when it is accepted, what the edge does to the queue and the ports, and what the response port shows. -/

namespace Sys2Proof.Machine

/-! ## Operands -/

theorem usesA_iff (i : Instr) :
    usesA i = true ↔ i = .pext ∨ i = .pdep ∨ (∃ k, i = .pextp k) ∨ ∃ k, i = .pdepp k := by
  cases i <;> simp [usesA]

theorem usesB_iff (i : Instr) : usesB i = true ↔ i = .pext ∨ i = .pdep ∨ ∃ k, i = .ppp k := by
  cases i <;> simp [usesB]

/-- `EXEC` does not look at an operand A that its command does not use (R36). -/
theorem execDecoded_unused_a {i : Instr} (h : usesA i = false) (b : Build) (S : SlotFile) (A A' B : Word) :
    execDecoded b S A B i = execDecoded b S A' B i := by
  cases i with
  | info => rfl
  | pext => cases h
  | pdep => cases h
  | ppp k => rfl
  | pextp k => cases h
  | pdepp k => cases h
  | ppprd k j => rfl

/-- `EXEC` does not look at an operand B that its command does not use (R36). -/
theorem execDecoded_unused_b {i : Instr} (h : usesB i = false) (b : Build) (S : SlotFile) (A B B' : Word) :
    execDecoded b S A B i = execDecoded b S A B' i := by
  cases i with
  | info => rfl
  | pext => cases h
  | pdep => cases h
  | ppp k => cases h
  | pextp k => rfl
  | pdepp k => rfl
  | ppprd k j => rfl

theorem exec_withA {i : Instr} (h : usesA i = false) (s : State) (v : Word) :
    exec i (withA s v) = mapNext (withA · v) (exec i s) := by
  have same := execDecoded_unused_a h s.build s.slots v s.pins.cmd.a s.pins.cmd.b
  rw [exec_completesWith i s]
  refine (exec_completesWith i (withA s v)).trans ?_
  simp only [withA, same]
  rfl

theorem exec_withB {i : Instr} (h : usesB i = false) (s : State) (v : Word) :
    exec i (withB s v) = mapNext (withB · v) (exec i s) := by
  have same := execDecoded_unused_b h s.build s.slots s.pins.cmd.a v s.pins.cmd.b
  rw [exec_completesWith i s]
  refine (exec_completesWith i (withB s v)).trans ?_
  simp only [withB, same]
  rfl

/-! ## Acceptance -/

/-- R31: `cmd_ready`. -/
theorem cmdReady_iff (s : State) :
    cmdReady s = true ↔ s.pins.rstN = true ∧ s.inflight.length < s.build.maxInflight := by
  simp [cmdReady, fewerThan_iff]

theorem accepting_iff (s : State) : accepting s = true ↔ s.pins.cmdValid = true ∧ cmdReady s = true := by
  simp [accepting]

/-- A running edge that presents a command to a queue with room accepts it. -/
theorem Running.accepting {s : State} (run : Running s) (valid : s.pins.cmdValid = true)
    (room : s.inflight.length < s.build.maxInflight) : accepting s = true :=
  (accepting_iff s).2 ⟨valid, (cmdReady_iff s).2 ⟨run.released, room⟩⟩

/-- An edge without reset that answers a next state is a running one. -/
theorem running_of_step {s t : State} (h : step s = .next t) (released : s.pins.rstN = true) : Running s := by
  rcases step_cases h with ⟨hr, -⟩ | ⟨run, -⟩ | ⟨run, -⟩
  · simp [released] at hr
  · exact run
  · exact run

/-- An edge that accepts a command: what `EXEC` answers joins the served queue, and the command joins the run (R31). -/
theorem step_eq_of_accepting {s : State} (run : Running s) (ha : accepting s = true) :
    step s = .next (finishAccept { serveQueue s with
      slots := (execCommand s.build s.slots s.pins.cmd).1
      inflight := (serveQueue s).inflight ++
        [⟨(execCommand s.build s.slots s.pins.cmd).2, responseWait s⟩] }) := by
  rw [step_accept run ha, runPort_completesWith]
  rfl

theorem length_roomyQueue_lt (s : State) : (roomyQueue s).length < s.build.maxInflight := by
  unfold roomyQueue
  split
  · exact (fewerThan_iff _ _).1 ‹_›
  · exact Nat.succ_pos _

theorem running_withFetchWord (s : State) (n w : Nat) : Running (s.withFetchWord n w) := ⟨rfl, rfl, rfl⟩

/-! ## The queue and the ports around a step -/

/-- What a running edge does to the queue and the run's responses: it serves the queue, and at most one command joins,
whose response is delivered LATENCY edges or more after it (R31, R32). -/
theorem step_queue {s t : State} (run : Running s) (h : step s = .next t) :
    ∃ new : List InFlight, new.length ≤ 1 ∧ (∀ e ∈ new, s.build.latency ≤ e.wait + 1) ∧
      t.inflight = (serveQueue s).inflight ++ new ∧ t.delivered = (serveQueue s).delivered := by
  cases ha : accepting s with
  | false =>
    cases (step_idle run ha).symm.trans h
    exact ⟨[], by simp⟩
  | true =>
    cases (step_eq_of_accepting run ha).symm.trans h
    refine ⟨[_], le_rfl, fun e he => ?_, rfl, rfl⟩
    obtain rfl := List.mem_singleton.1 he
    simp only [responseWait, Build.latency]
    omega

/-- What every edge does to the ports and to what no command changes (R4, R94). -/
theorem step_ports {s t : State} (h : step s = .next t) :
    t.pins = s.upcoming.headD (Config.hostPins s.tick) ∧ t.upcoming = s.upcoming.tail ∧ t.build = s.build ∧
      t.resetSeen = true := by
  rcases step_cases h with ⟨-, rfl⟩ | ⟨run, -, rfl⟩ | ⟨run, -, u, hu, rfl⟩
  · exact ⟨rfl, rfl, rfl, rfl⟩
  · exact ⟨rfl, rfl, rfl, run.resetSeen⟩
  · obtain rfl := (runPort_completesWith _).eq_of_next hu
    exact ⟨rfl, rfl, rfl, run.resetSeen⟩

/-- A head that is not delivered keeps its place and its response, with one edge less to wait (R32). -/
theorem step_keeps_head {s t : State} {e : InFlight} {q : List InFlight} (run : Running s) (h : step s = .next t)
    (hq : s.inflight = e :: q) (kept : deliveredNow s = []) : ∃ q', t.inflight = e.aged :: q' := by
  obtain ⟨new, -, -, ht, -⟩ := step_queue run h
  exact ⟨q.map InFlight.aged ++ new, by simp [ht, kept, hq]⟩

/-! ## The response port -/

theorem rspPort_due {s : State} {e : InFlight} {q : List InFlight} (released : s.pins.rstN = true)
    (hq : s.inflight = e :: q) (hw : e.wait = 0) : rspPort s = some e.rsp := by
  simp [rspPort, rspValid, headDue, released, hq, hw]

theorem rspValid_iff (s : State) :
    rspValid s = true ↔ s.pins.rstN = true ∧ ∃ e q, s.inflight = e :: q ∧ e.wait = 0 := by
  simp only [rspValid, Bool.and_eq_true, headDue_iff]

theorem outputs_of_rspPort_some {s : State} {r : Response} (hs : s.resetSeen = true) (h : rspPort s = some r) :
    outputs s = ⟨cmdReady s, true, statusCode r.status, r.data⟩ := by
  simp only [outputs, hs, h, if_true]

theorem outputs_of_rspPort_none {s : State} (hs : s.resetSeen = true) (h : rspPort s = none) :
    outputs s = ⟨cmdReady s, false, Config.idleStatus s.tick, Config.idleData s.tick⟩ := by
  simp only [outputs, hs, h, if_true]

theorem outputs_cmdReady {s : State} (hs : s.resetSeen = true) : (outputs s).cmdReady = cmdReady s := by
  cases h : rspPort s with
  | none => rw [outputs_of_rspPort_none hs h]
  | some r => rw [outputs_of_rspPort_some hs h]

theorem outputs_rspValid {s : State} (hs : s.resetSeen = true) : (outputs s).rspValid = rspValid s := by
  cases hv : rspValid s with
  | false => rw [outputs_of_rspPort_none hs (by simp [rspPort, hv])]
  | true =>
    obtain ⟨released, e, q, hq, hw⟩ := (rspValid_iff s).1 hv
    rw [outputs_of_rspPort_some hs (rspPort_due released hq hw)]

/-- R40: the code on `rsp_status` names the status, and the code 3 none. -/
theorem statusCode_names (st : Status) :
    (st = .ok ↔ statusCode st = 0) ∧ (st = .illegal ↔ statusCode st = 1) ∧ (st = .empty ↔ statusCode st = 2) ∧
      statusCode st ≠ 3 := by
  cases st <;> decide

end Sys2Proof.Machine
end

section
/-! SUPPORT. How many responses a number of edges can deliver (R32): a bound that reset, the queue's service and an
accepted command keep, and a run of at most LATENCY edges with them. -/

namespace Sys2Proof.Machine

/-- At most `D` responses are delivered before `m` edges are over: those delivered and the older part of the queue are
no more than `D`, and every command behind that part has `m` edges to wait. -/
def DeliversAtMost (D m : Nat) (s : State) : Prop :=
  ∃ old young : List InFlight, s.inflight = old ++ young ∧ s.delivered.length + old.length ≤ D ∧
    ∀ e ∈ young, m ≤ e.wait

/-- Before any edge, the responses of the commands already accepted are the bound. -/
theorem deliversAtMost_responsesOf (s : State) (m : Nat) : DeliversAtMost (responsesOf s).length m s :=
  ⟨s.inflight, [], by simp [responsesOf]⟩

/-- Serving the queue delivers from its older part only, and leaves one edge less to wait. -/
theorem DeliversAtMost.serveQueue {D m : Nat} {s : State} (hs : DeliversAtMost D (m + 1) s) :
    DeliversAtMost D m (serveQueue s) := by
  obtain ⟨old, young, hq, bound, late⟩ := hs
  have aged : ∀ e ∈ young.map InFlight.aged, m ≤ e.wait := fun e he => by
    obtain ⟨e', he', rfl⟩ := List.mem_map.1 he
    exact Nat.le_sub_one_of_lt (late e' he')
  rcases deliveredNow_cases s with hd | ⟨e, q, hq', hw, -, -, hd⟩
  · exact ⟨old.map InFlight.aged, young.map InFlight.aged, by simp [hd, hq], by simpa [hd] using bound, aged⟩
  · rw [hq'] at hq
    cases old with
    | nil =>
      have mem : e ∈ [] ++ young := hq ▸ List.mem_cons_self
      have := late e mem
      omega
    | cons e' old =>
      obtain ⟨rfl, rfl⟩ := List.cons.inj hq
      refine ⟨old.map InFlight.aged, young.map InFlight.aged, by simp [hd, hq'], ?_, aged⟩
      simp only [serveQueue_delivered, hd, List.length_append, List.length_cons, List.length_nil,
        List.length_map] at bound ⊢
      omega

/-- One edge: reset empties the queue and the run, and a command that joins waits LATENCY (R32, R89). -/
theorem DeliversAtMost.step {D m : Nat} {s t : State} (hs : DeliversAtMost D (m + 1) s)
    (hm : m + 1 ≤ s.build.latency) (h : step s = .next t) : DeliversAtMost D m t := by
  cases hr : s.pins.rstN with
  | false =>
    cases (step_reset hr).symm.trans h
    exact ⟨[], [], by simp⟩
  | true =>
    obtain ⟨new, -, hnew, ht, hd⟩ := step_queue (running_of_step h hr) h
    obtain ⟨old, young, hq, bound, late⟩ := hs.serveQueue
    refine ⟨old, young ++ new, by rw [ht, hq, List.append_assoc], hd ▸ bound, fun e he => ?_⟩
    rcases List.mem_append.1 he with he | he
    · exact late e he
    · exact Nat.le_of_succ_le_succ (hm.trans (hnew e he))

/-- No run of at most LATENCY edges delivers more than the responses of the commands accepted before it. -/
theorem DeliversAtMost.run {D n : Nat} {s u : State} (hs : DeliversAtMost D n s) (hn : n ≤ s.build.latency)
    (h : Host.Core.run Sys2Proof.core n s = .next u) : DeliversAtMost D 0 u := by
  induction n generalizing s with
  | zero =>
    cases h
    exact hs
  | succ n ih =>
    obtain ⟨t, hst, htu⟩ := run_succ h
    obtain ⟨-, -, build, -⟩ := step_ports hst
    exact ih (hs.step hn hst) (by rw [build]; omega) htu

theorem DeliversAtMost.length_delivered_le {D m : Nat} {s : State} (hs : DeliversAtMost D m s) :
    s.delivered.length ≤ D := by
  obtain ⟨old, -, -, bound, -⟩ := hs
  omega

end Sys2Proof.Machine
end

section
/-! The obligations of the encoding's family (spec file 30), settled. -/

namespace Sys2Proof.Machine

/-- Settles O3: the words that decode are the words of the well-formed instructions, and no two of those share a
word. -/
theorem fortyThreeWordsDecode : Obligations.FortyThreeWordsDecode := by
  rw [Obligations.FortyThreeWordsDecode, setOf_decodes, encode_injOn.ncard_image, ncard_wellFormed]

/-- Settles O32, by the table of `EXEC`, which a command's state and response are made of. -/
theorem unusedOperandsAreIgnored : Obligations.UnusedOperandsAreIgnored :=
  ⟨usesA_iff, usesB_iff, fun _ s v => ⟨fun h => exec_withA h s v, fun h => exec_withB h s v⟩⟩

/-- Settles O35: the state and the response of a command are those of `EXEC`, whether its word decodes or not. -/
theorem portRunsExec : Obligations.PortRunsExec := runPort_completesWith

/-- Settles O43: a placed word is presented at a running edge whose queue has room. -/
theorem placedWordIsRunNext : Obligations.PlacedWordIsRunNext := by
  intro s w i h
  have placed : (s.withFetchWord 32 w.toNat).pins.cmd.word = w := by
    rw [withFetchWord_pins, Nat.mod_eq_of_lt w.isLt]
    simp
  have run := running_withFetchWord s 32 w.toNat
  rw [step_accept run (run.accepting rfl (length_roomyQueue_lt s)), runPort_ok (by rw [serveQueue_pins, placed, h])]

/-- Settles O44: an edge without reset that answers a next state is a running one, which accepts or only serves the
queue. -/
theorem acceptanceRule : Obligations.AcceptanceRule := by
  refine ⟨cmdReady_iff, fun s hs => outputs_cmdReady hs, fun s t _ released h => ⟨fun hv => ?_, fun hv => ?_⟩⟩
  · have run := running_of_step h released
    have ha := (accepting_iff s).2 hv
    have responses := step_responsesOf_of_accepting run ha h
    cases (step_eq_of_accepting run ha).symm.trans h
    exact ⟨rfl, rfl, List.getLast?_concat .., responses⟩
  · have ha : accepting s = false := by rwa [← accepting_iff, Bool.not_eq_true] at hv
    cases (step_idle (running_of_step h released) ha).symm.trans h
    exact ⟨rfl, rfl, responsesOf_serveQueue s⟩

/-- Settles O45: the port shows the head where the head is due, and the code of its status names the status. -/
theorem responsePortShowsTheHead : Obligations.ResponsePortShowsTheHead := by
  intro s hs
  rw [outputs_rspValid hs]
  refine ⟨rspValid_iff s, fun e q hv hq => ?_⟩
  obtain ⟨released, e', q', hq', hw⟩ := (rspValid_iff s).1 hv
  obtain ⟨rfl, -⟩ := List.cons.inj (hq.symm.trans hq')
  rw [outputs_of_rspPort_some hs (rspPort_due released hq hw)]
  exact ⟨rfl, rfl, statusCode_names e.rsp.status⟩

/-- Settles O46: the head stays at the head with its response, and a wait that is over stays over. -/
theorem presentedResponseIsStable : Obligations.PresentedResponseIsStable := by
  intro s t run hv notTaken h released
  obtain ⟨-, e, q, hq, hw⟩ := (rspValid_iff s).1 hv
  have kept : deliveredNow s = [] := by simp [deliveredNow, notTaken]
  obtain ⟨q', ht⟩ := step_keeps_head run h hq kept
  have due : e.aged.wait = 0 := by simp [InFlight.aged, hw]
  refine ⟨(rspValid_iff t).2 ⟨released, _, _, ht, due⟩, ?_⟩
  rw [rspPort_due released ht due, rspPort_due run.released hq hw]
  rfl

/-- Settles O48: the edge and the `n` edges after it are LATENCY edges at most, too few for a command accepted at the
first of them to be answered. -/
theorem noResponseBeforeLatency : Obligations.NoResponseBeforeLatency := by
  intro n s t u hst hn htu
  have run : Host.Core.run Sys2Proof.core (n + 1) s = .next u := (run_succ_of_next hst n).trans htu
  exact ((deliversAtMost_responsesOf s (n + 1)).run hn run).length_delivered_le

/-- Settles O49, by induction on the wait: each edge before its end keeps the head and takes one edge off its wait. -/
theorem headIsPresentedAfterItsWait : Obligations.HeadIsPresentedAfterItsWait := by
  intro n
  induction n with
  | zero =>
    intro s t r q _ hq _ released h
    cases h
    exact rspPort_due (released _ List.mem_cons_self) hq rfl
  | succ n ih =>
    intro s u r q _ hq listed released h
    obtain ⟨t, hst, htu⟩ := run_succ h
    obtain ⟨pins, upcoming, -, seen⟩ := step_ports hst
    have kept : deliveredNow s = [] := deliveredNow_not_due (by simp [hq])
    obtain ⟨q', ht⟩ :=
      step_keeps_head (running_of_step hst (released _ List.mem_cons_self)) hst hq kept
    cases hup : s.upcoming with
    | nil => simp [hup] at listed
    | cons p ps =>
      rw [hup] at pins upcoming listed released
      refine ih t u r q' seen ht (by simpa [upcoming] using listed) (fun p' hp => ?_) htu
      rw [pins, upcoming] at hp
      exact released p' (List.mem_cons_of_mem _ hp)

/-- Settles O5: only PPPRD has an index, and its index is below 7. -/
theorem assemblyMeansTheseCommands : Obligations.AssemblyMeansTheseCommands := by
  refine ⟨rfl, fun a m => rfl, fun a m => rfl, fun k m => ?_, fun k a => ?_, fun k a => ?_, fun k j => ?_,
    fun k => rfl, fun k i => rfl⟩
  · rw [assemble, encode_of_idx_zero rfl]; rfl
  · rw [assemble, encode_of_idx_zero rfl]; rfl
  · rw [assemble, encode_of_idx_zero rfl]; rfl
  · rw [assemble, encode_eq_or_shifts, ← setWidth_ofNat_idx]; rfl

/-- Settles O42: such an edge accepts, so it is the command on the port between the queue's service and the end of the
edge. -/
theorem stepRunsThePresentedCommand : Obligations.StepRunsThePresentedCommand := by
  intro s run valid room
  have step_eq := step_accept run (run.accepting valid room)
  refine ⟨fun i h => ?_, fun e h => ?_⟩
  · rw [step_eq, runPort_ok (s := serveQueue s) h]
  · rw [step_eq, runPort_error (s := serveQueue s) h]
    rfl

end Sys2Proof.Machine
end

section
/-! SUPPORT. The unit `PXS` and the planes, said once (R43 to R49): a stage of `PREFIX_XOR` doubles the window of
bits XORed at each position, a bit of the carry-less product is an XOR of bits of `a`, and each plane is a digit of a
count of unset mask bits. -/

namespace Sys2Proof.Machine

/-! ## `PREFIX_XOR` -/

/-- Bit `b` of `v` is the XOR of the `w` bits of `x` that end at bit `b`, or of as many as there are. -/
def XorWindow (x v : Word) (w : Nat) : Prop :=
  ∀ b, b < 64 → v.getLsbD b = (xorBelow x (b + 1) ^^ xorBelow x (b + 1 - w))

theorem xorWindow_self (x : Word) : XorWindow x x 1 := fun b _ => by
  rw [Nat.add_sub_cancel, xorBelow_succ, Bool.xor_right_comm, Bool.xor_self, Bool.false_xor]

/-- A shift-and-XOR step by the window's size doubles the window: it adds the window that ends `w` bits lower. -/
theorem XorWindow.double {x v : Word} {w : Nat} (h : XorWindow x v w) : XorWindow x (v ^^^ (v <<< w)) (w + w) := by
  intro b hb
  by_cases hw : b < w
  · have empty : b + 1 - w = 0 ∧ b + 1 - (w + w) = 0 := by omega
    simp [-BitVec.getLsbD_eq_getElem, h b hb, hw, empty]
  · have lower : b - w + 1 = b + 1 - w ∧ b + 1 - w - w = b + 1 - (w + w) := by omega
    simp [-BitVec.getLsbD_eq_getElem, -xorBelow_succ, h b hb, h (b - w) (by omega), hb, hw, lower]

/-- The six stages make the window 64 bits long. -/
theorem prefixXor_xorWindow (x : Word) : XorWindow x (prefixXor x) 64 :=
  (xorWindow_self x).double.double.double.double.double.double

theorem prefixXor_getLsbD (x : Word) {b : Nat} (hb : b < 64) : (prefixXor x).getLsbD b = xorBelow x (b + 1) := by
  have whole : b + 1 - 64 = 0 := by omega
  simp [prefixXor_xorWindow x b hb, whole]

/-! ## `CLMUL_LO` -/

/-- The XOR over `j` below `n` of `a[b-j] & c[j]` (R44). -/
def clmulBit (a c : Word) (b n : Nat) : Bool :=
  (List.range n).foldl (fun acc j => acc ^^ (a.getLsbD (b - j) && c.getLsbD j)) false

@[simp] theorem clmulBit_zero (a c : Word) (b : Nat) : clmulBit a c b 0 = false := rfl

@[simp] theorem clmulBit_succ (a c : Word) (b n : Nat) :
    clmulBit a c b (n + 1) = (clmulBit a c b n ^^ (a.getLsbD (b - n) && c.getLsbD n)) := by
  simp [clmulBit, List.range_succ]

/-- `CLMUL_LO` after the first `n` bits of its multiplier (R44). -/
def clmulUpTo (a c : Word) (n : Nat) : Word :=
  (List.range n).foldl (fun r j => if c.getLsbD j then r ^^^ (a <<< j) else r) 0

theorem clmulUpTo_succ (a c : Word) (n : Nat) :
    clmulUpTo a c (n + 1) = if c.getLsbD n then clmulUpTo a c n ^^^ (a <<< n) else clmulUpTo a c n := by
  simp [clmulUpTo, List.range_succ]

/-- Only the bits of the multiplier at or below `b` reach bit `b`. -/
theorem clmulUpTo_getLsbD (a c : Word) (n : Nat) {b : Nat} (hb : b < 64) :
    (clmulUpTo a c n).getLsbD b = clmulBit a c b (min n (b + 1)) := by
  induction n with
  | zero => simp [clmulUpTo]
  | succ n ih =>
    have step : (clmulUpTo a c (n + 1)).getLsbD b =
        (clmulBit a c b (min n (b + 1)) ^^ (!decide (b < n) && (a.getLsbD (b - n) && c.getLsbD n))) := by
      rw [clmulUpTo_succ]
      cases hc : c.getLsbD n <;> simp [-BitVec.getLsbD_eq_getElem, ih, hb]
    rw [step]
    by_cases hn : n ≤ b
    · have mins : min n (b + 1) = n ∧ min (n + 1) (b + 1) = n + 1 := by omega
      simp [mins, hn]
    · obtain ⟨now, next⟩ : min n (b + 1) = b + 1 ∧ min (n + 1) (b + 1) = b + 1 := by omega
      simp only [now, next, not_le.1 hn, decide_true, Bool.not_true, Bool.false_and, Bool.xor_false]

theorem clmulLo_getLsbD (a c : Word) {b : Nat} (hb : b < 64) : (clmulLo a c).getLsbD b = clmulBit a c b (b + 1) := by
  have all : min 64 (b + 1) = b + 1 := by omega
  rw [← all]
  exact clmulUpTo_getLsbD a c 64 hb

/-! ## `PXS` -/

theorem minusTwo_getLsbD {j : Nat} (hj : j < 64) : minusTwo.getLsbD j = decide (1 ≤ j) := by
  revert j; decide

/-- The multiplier -2 skips bit `b` itself, and each further bit of it adds the bit of `x` one lower (R45). -/
theorem clmulBit_minusTwo (x : Word) {b n : Nat} (hb : b < 64) (hn : n ≤ b) :
    clmulBit x minusTwo b (n + 1) = (xorBelow x b ^^ xorBelow x (b - n)) := by
  induction n with
  | zero => rw [clmulBit_succ, minusTwo_getLsbD (by decide)]; simp
  | succ n ih =>
    have next : b - n = b - (n + 1) + 1 := by omega
    rw [clmulBit_succ, ih (by omega), minusTwo_getLsbD (by omega), next]
    simp

/-- R45: either form of the unit gives at bit `b` the XOR of the bits strictly below `b`. -/
theorem pxsBy_getLsbD (impl : PrefixImpl) (x : Word) {b : Nat} (hb : b < 64) :
    (pxsBy impl x).getLsbD b = xorBelow x b := by
  cases impl with
  | shiftXor =>
    cases b with
    | zero => simp [pxsBy]
    | succ b => simp [-BitVec.getLsbD_eq_getElem, pxsBy, hb, prefixXor_getLsbD x (b := b) (by omega)]
  | clmul => rw [pxsBy, clmulLo_getLsbD x minusTwo hb, clmulBit_minusTwo x hb le_rfl]; simp

theorem pxs_getLsbD (x : Word) {b : Nat} (hb : b < 64) : (pxs x).getLsbD b = xorBelow x b :=
  pxsBy_getLsbD .shiftXor x hb

theorem pxsBy_eq_pxs (impl : PrefixImpl) : pxsBy impl = pxs := by
  funext x
  exact BitVec.eq_of_getLsbD_eq fun b hb => by rw [pxsBy_getLsbD impl x hb, pxs_getLsbD x hb]

/-! ## The planes count unset mask bits -/

/-- Counting one further flips digit `i` exactly where the carry reaches it: where every lower digit is 1. -/
theorem testBit_add_one (n i : Nat) : (n + 1).testBit i = (n.testBit i ^^ decide (∀ d < i, n.testBit d = true)) := by
  induction i generalizing n with
  | zero => simp [-decide_not, ← decide_not, Nat.succ_mod_two_eq_one_iff]
  | succ i ih =>
    have low : (∀ d < i + 1, n.testBit d = true) ↔ n % 2 = 1 ∧ ∀ d < i, (n / 2).testBit d = true := by
      simp only [Nat.forall_lt_succ_left, Nat.testBit_succ, Nat.testBit_zero, decide_eq_true_iff]
    simp only [Nat.testBit_succ, low]
    rcases Nat.mod_two_eq_zero_or_one n with hn | hn
    · have same : (n + 1) / 2 = n / 2 := by omega
      simp [same, hn]
    · have more : (n + 1) / 2 = n / 2 + 1 := by omega
      simp [more, hn, ih]

/-- A number below `2^n` is the sum of its `n` digits by their weights. -/
theorem sum_testBit_mul_two_pow (m n : Nat) : ∑ i : Fin n, (m.testBit i).toNat * 2 ^ i.val = m % 2 ^ n := by
  induction n with
  | zero => simp [Nat.mod_one]
  | succ n ih =>
    rw [Fin.sum_univ_castSucc, Nat.mod_pow_succ, ← Nat.toNat_testBit, mul_comm (2 ^ n)]
    exact congrArg (· + _) ih

/-- `u` marks the positions whose unset mask bit carries into digit `i` of the running count (R49): those whose index
among the unset positions has its low `i` digits all 1. -/
def MarksCarries (mask u : Word) (i : Nat) : Prop :=
  ∀ k, k < 64 → (u.getLsbD k = true ↔ mask.getLsbD k = false ∧ ∀ d, d < i → (zerosBelow mask k).testBit d = true)

/-- The XOR of the carries into digit `i` below `b` is that digit of the count below `b`: it flips where they stand. -/
theorem MarksCarries.xorBelow_eq {mask u : Word} {i : Nat} (hu : MarksCarries mask u i) {b : Nat} (hb : b ≤ 64) :
    xorBelow u b = (zerosBelow mask b).testBit i := by
  induction b with
  | zero => simp
  | succ b ih =>
    have carry : u.getLsbD b = (!mask.getLsbD b && decide (∀ d < i, (zerosBelow mask b).testBit d = true)) := by
      rw [Bool.eq_iff_iff, hu b hb]
      simp
    rw [xorBelow_succ, zerosBelow_succ, ih (by omega), carry]
    cases mask.getLsbD b <;> simp [testBit_add_one]

theorem MarksCarries.pxs_getLsbD {mask u : Word} {i : Nat} (hu : MarksCarries mask u i) {b : Nat} (hb : b < 64) :
    (pxs u).getLsbD b = (zerosBelow mask b).testBit i :=
  (Machine.pxs_getLsbD u hb).trans (hu.xorBelow_eq hb.le)

/-- R49: a carry goes on to digit `i + 1` where digit `i` is 1 too. -/
theorem pppCarry_marksCarries (mask : Word) (i : Nat) : MarksCarries mask (pppCarry mask i) i := by
  induction i with
  | zero => intro k hk; simp [hk]
  | succ i ih =>
    intro k hk
    rw [pppCarry_succ, BitVec.getLsbD_and, Bool.and_eq_true, ih k hk, ih.pxs_getLsbD hk, Nat.forall_lt_succ_right,
      and_assoc]

/-- R48: plane `i` is digit `i` of the count of unset mask bits below each position. -/
theorem ppp_plane_getLsbD (mask : Word) (i : Fin 6) {b : Nat} (hb : b < 64) :
    ((ppp mask).planes[i]).getLsbD b = (zerosBelow mask b).testBit i := by
  rw [ppp_plane, (pppCarry_marksCarries mask i).pxs_getLsbD hb]

/-- Six words are the planes of a mask if their bits are the digits of its counts. -/
theorem ppp_planes_eq {mask : Word} {planes : Vector Word 6}
    (h : ∀ (i : Fin 6) (b : Nat), b < 64 → planes[i].getLsbD b = (zerosBelow mask b).testBit i) :
    (ppp mask).planes = planes :=
  Vector.ext fun i hi => BitVec.eq_of_getLsbD_eq fun b hb =>
    (ppp_plane_getLsbD mask ⟨i, hi⟩ hb).trans (h ⟨i, hi⟩ b hb).symm

/-! ## Counts of particular masks -/

theorem zerosBelow_zero_mask (b : Nat) : zerosBelow 0 b = b := by
  induction b with
  | zero => rfl
  | succ b ih => rw [zerosBelow_succ, ih]; simp

theorem zerosBelow_allOnes {b : Nat} (hb : b ≤ 64) : zerosBelow 0xFFFFFFFFFFFFFFFF b = 0 := by
  revert b; decide

/-- The count below `b` reads the mask below `b` only. -/
theorem zerosBelow_congr {m m' : Word} {b : Nat} (h : ∀ k < b, m.getLsbD k = m'.getLsbD k) :
    zerosBelow m b = zerosBelow m' b := by
  induction b with
  | zero => rfl
  | succ b ih => rw [zerosBelow_succ, zerosBelow_succ, ih fun k hk => h k (by omega), h b (by omega)]

/-- The planes do not depend on bit 63 of the mask: no position lies above it (R50). -/
theorem ppp_planes_congr {m m' : Word} (h : ∀ b < 63, m.getLsbD b = m'.getLsbD b) :
    (ppp m).planes = (ppp m').planes :=
  ppp_planes_eq fun i b hb => by
    rw [ppp_plane_getLsbD m' i hb, zerosBelow_congr fun k hk => h k (by omega)]

/-! ## PPPRD -/

/-- PPPRD on a valid slot answers the word its index names (R53). -/
theorem ppprd_completesWith {s : State} {k : SlotField} {j : IdxField} {r : Fin 7} {p : PppStruct}
    (hj : wordIndex j = some r) (hp : s.slots[slotIndex k] = some p) :
    CompletesWith (exec (.ppprd k j) s) s s.slots ⟨.ok, pppWord p r⟩ := by
  have := exec_completesWith (.ppprd k j) s
  simpa only [execDecoded, hj, execOnSlot_of_some hp] using this

/-- The IDX field `i + 1` names word `i + 1`. -/
theorem wordIndex_succ (i : Fin 6) : wordIndex (BitVec.ofNat 3 (i.val + 1)) = some i.succ := by
  revert i; decide

/-- Word `i + 1` of a structure is its plane `i` (R53). -/
theorem pppWord_succ (p : PppStruct) (i : Fin 6) : pppWord p i.succ = p.planes[i] := by
  simp [pppWord]

end Sys2Proof.Machine
end

section
/-! The obligations of the preprocessor's family (spec file 41), settled. -/

namespace Sys2Proof.Machine

/-- Settles O6: the six stages double a window of one bit to one of 64 bits. -/
theorem prefixXorIsRunningXor : Obligations.PrefixXorIsRunningXor := fun x _ hb => prefixXor_getLsbD x hb

/-- Settles O7, by induction on the bits of the multiplier: one above `b` adds nothing to bit `b`. -/
theorem clmulLowBits : Obligations.ClmulLowBits := fun a c _ hb => clmulLo_getLsbD a c hb

/-- Settles O8: both forms give at bit `b` the XOR of the bits below it, which at bit 0 is that of none. -/
theorem pxsIsExclusiveRunningXor : Obligations.PxsIsExclusiveRunningXor := fun impl x =>
  ⟨pxsBy_getLsbD impl x (by decide), fun _ _ hb => pxsBy_getLsbD impl x hb⟩

/-- Settles O9: a PPP structure is built from the unit's function, and the two forms are one function. -/
theorem prefixFormsAreEquivalent : Obligations.PrefixFormsAreEquivalent := fun impl =>
  ⟨fun x => congrFun (pxsBy_eq_pxs impl) x, fun mask => congrArg (pppWith · mask) (pxsBy_eq_pxs impl)⟩

/-- Settles O11: the low digits of the index of a position are all 1 exactly where the carries reach. -/
theorem carriesAreLowOnesIndices : Obligations.CarriesAreLowOnesIndices := fun mask i k _ hk =>
  pppCarry_marksCarries mask i k hk

/-- Settles O10: plane `i` is digit `i` of the count, and a count below 64 has no further digit. -/
theorem planesCountUnsetBits : Obligations.PlanesCountUnsetBits := by
  intro mask b hb
  have small : zerosBelow mask b < 2 ^ 6 := (zerosBelow_le mask b).trans_lt hb
  refine ⟨fun i => ppp_plane_getLsbD mask i hb, ?_⟩
  calc zerosBelow mask b
      = ∑ i : Fin 6, ((zerosBelow mask b).testBit i).toNat * 2 ^ i.val := by
        rw [sum_testBit_mul_two_pow, Nat.mod_eq_of_lt small]
    _ = ∑ i : Fin 6, (((ppp mask).planes[i]).getLsbD b).toNat * 2 ^ i.val := by
        simp only [ppp_plane_getLsbD mask _ hb]

/-- Settles O12: each property is one of the counts that the planes are the digits of. -/
theorem pppProperties : Obligations.PppProperties := by
  have zeroMask (i : Fin 6) (b : Nat) (hb : b < 64) : ((ppp 0).planes[i]).getLsbD b = b.testBit i := by
    rw [ppp_plane_getLsbD 0 i hb, zerosBelow_zero_mask]
  refine ⟨fun mask i => ?_, ppp_planes_eq fun i b hb => ?_, ⟨zeroMask, ppp_planes_eq fun i b hb => ?_⟩, ppp_mask,
    fun m m' h => ppp_planes_congr h, ppp_planes_congr (by decide)⟩
  · rw [ppp_plane_getLsbD mask i (by decide), zerosBelow_zero, Nat.zero_testBit]
  · rw [zerosBelow_allOnes hb.le]
    simp
  · rw [zerosBelow_zero_mask]
    revert i b
    decide

/-- Settles O25: PPP responds and writes one slot. -/
theorem pppBuildsItsSlot : Obligations.PppBuildsItsSlot := by
  intro s k
  refine ⟨s.slots.set (slotIndex k) (some (ppp s.pins.cmd.b)), exec_completesWith (.ppp k) s, ?_, fun k' hk => ?_⟩
  · rw [set_slot_getElem, if_pos rfl]
  · rw [set_slot_getElem, if_neg hk.symm]

/-- Settles O27: index 0 names the mask, and index `i + 1` plane `i`. -/
theorem ppprdAnswersWordOfSlot : Obligations.PpprdAnswersWordOfSlot := by
  intro s k p hp
  refine ⟨ppprd_completesWith (r := 0) rfl hp, fun i => ?_⟩
  rw [← pppWord_succ p i]
  exact ppprd_completesWith (wordIndex_succ i) hp

end Sys2Proof.Machine
end

section
/-! SUPPORT. Where gather takes a selected bit, said once (R54 to R57): before stage `i` the bit of position `b` stands
lower by the low `i` digits of the count of unset mask bits below `b`, plane `i` reads the next digit of that count
there, and no two selected bits ever stand at one position. -/

namespace Sys2Proof.Machine

/-! ## Words by their bits -/

theorem eq_zero_of_getLsbD {x : Word} (h : ∀ b, ¬x.getLsbD b = true) : x = 0 :=
  BitVec.eq_of_getLsbD_eq fun b _ => (Bool.eq_false_iff.2 (h b)).trans BitVec.getLsbD_zero.symm

/-- Where two words have no set bit in common, OR and XOR agree on them. -/
theorem or_eq_xor_of_and_eq_zero {x y : Word} (h : x &&& y = 0) : x ||| y = x ^^^ y := by
  refine BitVec.eq_of_getLsbD_eq fun b _ => ?_
  have apart : (x &&& y).getLsbD b = false := h ▸ BitVec.getLsbD_zero
  rw [BitVec.getLsbD_and] at apart
  rw [BitVec.getLsbD_or, BitVec.getLsbD_xor]
  cases hx : x.getLsbD b with
  | false => simp
  | true => simpa [hx] using apart

/-! ## Counts of set bits -/

/-- The set and the unset bits below a position make up the positions below it. -/
theorem countP_add_zerosBelow (m : Word) (b : Nat) :
    (List.range b).countP (fun k => m.getLsbD k) + zerosBelow m b = b := by
  simpa [zerosBelow] using (List.length_eq_countP_add_countP (fun k => m.getLsbD k) (l := List.range b)).symm

/-- No unset bit stands below a position exactly where every bit below it is set. -/
theorem zerosBelow_eq_zero_iff (m : Word) (b : Nat) : zerosBelow m b = 0 ↔ ∀ k < b, m.getLsbD k = true := by
  simp [zerosBelow, List.countP_eq_zero]

theorem onesCount_eq_length_setPositions (m : Word) : onesCount m = (setPositions m).length :=
  List.countP_eq_length_filter

/-- The count over `2^n` positions, each half of which adds at most half of 64, fits in 7 bits (R61). -/
theorem onesFrom_toNat (x : Word) {n : Nat} (hn : n ≤ 6) (lo : Nat) :
    (onesFrom x n lo).toNat = (List.range' lo (2 ^ n)).countP (fun k => x.getLsbD k) := by
  induction n generalizing lo with
  | zero => cases h : x.getLsbD lo <;> simp [onesFrom, h]
  | succ n ih =>
    have halves : List.range' lo (2 ^ (n + 1)) = List.range' lo (2 ^ n) ++ List.range' (lo + 2 ^ n) (2 ^ n) := by
      rw [List.range'_append_1, pow_succ, mul_two]
    have small : 2 ^ n ≤ 2 ^ 5 := Nat.pow_le_pow_right (by decide) (by omega)
    have bound (l : Nat) : (List.range' l (2 ^ n)).countP (fun k => x.getLsbD k) ≤ 2 ^ n := by
      simpa using List.countP_le_length (l := List.range' l (2 ^ n)) (p := fun k => x.getLsbD k)
    have low := bound lo
    have high := bound (lo + 2 ^ n)
    rw [halves, List.countP_append, onesFrom, BitVec.toNat_add, ih (by omega), ih (by omega), Nat.mod_eq_of_lt]
    omega

/-- R61: `POPCOUNT` is the number of set bits. -/
theorem popcount_toNat (x : Word) : (popcount x).toNat = onesCount x := by
  rw [popcount, onesFrom_toNat x le_rfl, ← List.range_eq_range']
  rfl

/-! ## Selected positions in order -/

/-- As many elements of a filtered range lie below its entry `k` as stand before that entry. -/
theorem countP_range_getElem_filter_range (p : Nat → Bool) (n k : Nat) (h : k < ((List.range n).filter p).length) :
    (List.range ((List.range n).filter p)[k]).countP p = k := by
  induction n with
  | zero => simp at h
  | succ n ih =>
    cases hp : p n with
    | false =>
      have same : (List.range (n + 1)).filter p = (List.range n).filter p := by simp [List.range_succ, hp]
      simp only [same] at h ⊢
      exact ih h
    | true =>
      have more : (List.range (n + 1)).filter p = (List.range n).filter p ++ [n] := by simp [List.range_succ, hp]
      simp only [more, List.getElem_append] at h ⊢
      split
      · exact ih _
      · simp only [List.length_append, List.length_singleton] at h
        simp only [List.getElem_singleton, List.countP_eq_length_filter]
        omega

/-- R57: the selected position `b_k` stands above `k` by the unset positions below it. -/
theorem setPositions_sub_zerosBelow (m : Word) (k : Nat) (h : k < (setPositions m).length) :
    (setPositions m)[k] - zerosBelow m (setPositions m)[k] = k := by
  have before : (List.range (setPositions m)[k]).countP (fun j => m.getLsbD j) = k :=
    countP_range_getElem_filter_range (fun j => m.getLsbD j) 64 k h
  have := countP_add_zerosBelow m (setPositions m)[k]
  omega

/-! ## Where a selected bit stands -/

/-- Where the bit of position `b` stands after the first `i` stages (R54): each stage takes it down by the weight of
one digit of `ZB(m, b)`. -/
def gatherPos (m : Word) (i b : Nat) : Nat := b - zerosBelow m b % 2 ^ i

theorem gatherPos_le (m : Word) (i b : Nat) : gatherPos m i b ≤ b := Nat.sub_le _ _

@[simp] theorem gatherPos_zero (m : Word) (b : Nat) : gatherPos m 0 b = b := by simp [gatherPos, Nat.mod_one]

/-- After the six stages the bit has come down by the whole count (R57). -/
theorem gatherPos_six (m : Word) {b : Nat} (hb : b < 64) : gatherPos m 6 b = b - zerosBelow m b := by
  have := zerosBelow_le m b
  rw [gatherPos, Nat.mod_eq_of_lt (by omega)]

/-- Stage `i` takes the bit down by `2^i` exactly where digit `i` of the count is 1. -/
theorem gatherPos_succ (m : Word) (i b : Nat) :
    gatherPos m i b = 2 ^ i * ((zerosBelow m b).testBit i).toNat + gatherPos m (i + 1) b := by
  have low := Nat.mod_pow_succ (x := zerosBelow m b) (b := 2) (k := i)
  rw [← Nat.toNat_testBit] at low
  have := Nat.mod_le (zerosBelow m b) (2 ^ (i + 1))
  have := zerosBelow_le m b
  simp only [gatherPos]
  omega

/-- Where the bit has come to, plane `i` reads digit `i` of the count below its ORIGIN: the positions passed over hold
at most the low digits of that count (R55). -/
theorem zerosBelow_gatherPos_testBit (m : Word) (i b : Nat) :
    (zerosBelow m (gatherPos m i b)).testBit i = (zerosBelow m b).testBit i := by
  have passed : zerosBelow m b % 2 ^ i ≤ b := (Nat.mod_le _ _).trans (zerosBelow_le m b)
  have upper : zerosBelow m (gatherPos m i b) ≤ zerosBelow m b := zerosBelow_mono m (gatherPos_le m i b)
  have lower := zerosBelow_sub_le m (gatherPos m i b) (zerosBelow m b % 2 ^ i)
  rw [gatherPos, Nat.sub_add_cancel passed, ← gatherPos] at lower
  have digits := Nat.div_add_mod (zerosBelow m b) (2 ^ i)
  have high : zerosBelow m (gatherPos m i b) / 2 ^ i = zerosBelow m b / 2 ^ i :=
    le_antisymm (Nat.div_le_div_right upper)
      ((Nat.le_div_iff_mul_le (Nat.two_pow_pos i)).2 (by rw [mul_comm]; omega))
  rw [Nat.testBit_eq_decide_div_mod_eq, high, ← Nat.testBit_eq_decide_div_mod_eq]

/-- The stages keep the selected bits in order: from one to the next the position grows by more than the count does. -/
theorem gatherPos_lt (m : Word) (i : Nat) {b c : Nat} (hb : m.getLsbD b = true) (h : b < c) :
    gatherPos m i b < gatherPos m i c := by
  have apart : zerosBelow m (b + 1 + (c - (b + 1))) ≤ zerosBelow m (b + 1) + (c - (b + 1)) :=
    zerosBelow_sub_le m (b + 1) (c - (b + 1))
  rw [show b + 1 + (c - (b + 1)) = c by omega, zerosBelow_succ, if_pos hb] at apart
  have high : 2 ^ i * (zerosBelow m b / 2 ^ i) ≤ 2 ^ i * (zerosBelow m c / 2 ^ i) :=
    Nat.mul_le_mul_left _ (Nat.div_le_div_right (zerosBelow_mono m h.le))
  have := Nat.div_add_mod (zerosBelow m b) (2 ^ i)
  have := Nat.div_add_mod (zerosBelow m c) (2 ^ i)
  have := zerosBelow_le m b
  have := zerosBelow_le m c
  simp only [gatherPos]
  omega

/-- No two selected bits stand at one position. -/
theorem gatherPos_inj (m : Word) (i : Nat) {b c : Nat} (hb : m.getLsbD b = true) (hc : m.getLsbD c = true)
    (h : gatherPos m i b = gatherPos m i c) : b = c := by
  rcases Nat.lt_trichotomy b c with hlt | heq | hgt
  · have := gatherPos_lt m i hb hlt
    omega
  · exact heq
  · have := gatherPos_lt m i hc hgt
    omega

/-! ## The running value of gather -/

theorem gatherStay_getLsbD_iff (p : PppStruct) (v : Word) (i : Fin 6) (c : Nat) :
    (gatherStay p v i).getLsbD c = true ↔ v.getLsbD c = true ∧ (p.planes[i]).getLsbD c = false := by
  simp only [gatherStay, BitVec.getLsbD_and, BitVec.getLsbD_not, Bool.and_eq_true, Bool.not_eq_true',
    decide_eq_true_iff]
  exact ⟨fun ⟨hv, _, hp⟩ => ⟨hv, hp⟩, fun ⟨hv, hp⟩ => ⟨hv, BitVec.lt_of_getLsbD hv, hp⟩⟩

theorem gatherMove_getLsbD_iff (p : PppStruct) (v : Word) (i : Fin 6) (c : Nat) :
    (gatherMove p v i).getLsbD c = true ↔
      v.getLsbD (2 ^ i.val + c) = true ∧ (p.planes[i]).getLsbD (2 ^ i.val + c) = true := by
  simp only [gatherMove, shiftAmount, BitVec.getLsbD_ushiftRight, BitVec.getLsbD_and, Bool.and_eq_true]

/-- `v` holds the selected bits of `a`, each where it stands after the first `i` stages, and nothing else. -/
def GatheredTo (a m v : Word) (i : Nat) : Prop :=
  ∀ c, v.getLsbD c = true ↔ ∃ b, a.getLsbD b = true ∧ m.getLsbD b = true ∧ gatherPos m i b = c

theorem gatheredTo_premask (a m : Word) : GatheredTo a m (a &&& m) 0 := fun c => by
  simp only [gatherPos_zero, BitVec.getLsbD_and, Bool.and_eq_true]
  exact ⟨fun ⟨ha, hm⟩ => ⟨c, ha, hm, rfl⟩, fun ⟨_, ha, hm, hc⟩ => hc ▸ ⟨ha, hm⟩⟩

section

variable {a m v : Word} {i : Fin 6}

/-- Plane `i` splits the running value by digit `i` of the count below each bit's origin. -/
theorem GatheredTo.plane_iff (h : GatheredTo a m v i) (c : Nat) (digit : Bool) :
    (v.getLsbD c = true ∧ ((ppp m).planes[i]).getLsbD c = digit) ↔
      ∃ b, a.getLsbD b = true ∧ m.getLsbD b = true ∧ gatherPos m i b = c ∧ (zerosBelow m b).testBit i = digit := by
  have plane {b : Nat} (hm : m.getLsbD b = true) :
      ((ppp m).planes[i]).getLsbD (gatherPos m i b) = (zerosBelow m b).testBit i := by
    have hb : b < 64 := BitVec.lt_of_getLsbD hm
    rw [ppp_plane_getLsbD m i ((gatherPos_le m i b).trans_lt hb), zerosBelow_gatherPos_testBit]
  rw [h c]
  constructor
  · rintro ⟨⟨b, ha, hm, rfl⟩, hp⟩
    exact ⟨b, ha, hm, rfl, (plane hm).symm.trans hp⟩
  · rintro ⟨b, ha, hm, rfl, hd⟩
    exact ⟨⟨b, ha, hm, rfl⟩, (plane hm).trans hd⟩

/-- The bits that stay at stage `i` are those whose digit `i` is 0. -/
theorem GatheredTo.stay_iff (h : GatheredTo a m v i) (c : Nat) :
    (gatherStay (ppp m) v i).getLsbD c = true ↔
      ∃ b, a.getLsbD b = true ∧ m.getLsbD b = true ∧ gatherPos m (i + 1) b = c ∧
        (zerosBelow m b).testBit i = false := by
  rw [gatherStay_getLsbD_iff, h.plane_iff]
  refine exists_congr fun b => and_congr_right' (and_congr_right' (and_congr_left fun hd => ?_))
  rw [gatherPos_succ, hd, Bool.toNat_false, Nat.mul_zero, Nat.zero_add]

/-- The bits that move at stage `i` are those whose digit `i` is 1. -/
theorem GatheredTo.move_iff (h : GatheredTo a m v i) (c : Nat) :
    (gatherMove (ppp m) v i).getLsbD c = true ↔
      ∃ b, a.getLsbD b = true ∧ m.getLsbD b = true ∧ gatherPos m (i + 1) b = c ∧
        (zerosBelow m b).testBit i = true := by
  rw [gatherMove_getLsbD_iff, h.plane_iff]
  refine exists_congr fun b => and_congr_right' (and_congr_right' (and_congr_left fun hd => ?_))
  rw [gatherPos_succ, hd, Bool.toNat_true, Nat.mul_one, Nat.add_right_inj]

/-- R56: a bit that stays and a bit that moves to its place would be one bit with two digits. -/
theorem GatheredTo.stay_and_move (h : GatheredTo a m v i) :
    gatherStay (ppp m) v i &&& gatherMove (ppp m) v i = 0 := by
  refine eq_zero_of_getLsbD fun c => ?_
  rw [BitVec.getLsbD_and, Bool.and_eq_true, h.stay_iff, h.move_iff]
  rintro ⟨⟨b, -, hm, hc, stays⟩, b', -, hm', hc', moves⟩
  obtain rfl : b = b' := gatherPos_inj m (i + 1) hm hm' (hc.trans hc'.symm)
  rw [stays] at moves
  cases moves

/-- Stage `i` takes every selected bit to its next place. -/
theorem GatheredTo.stage (h : GatheredTo a m v i) : GatheredTo a m (gatherStage (ppp m) v i) (i + 1) := fun c => by
  rw [gatherStage, BitVec.getLsbD_or, Bool.or_eq_true, h.stay_iff, h.move_iff]
  constructor
  · rintro (⟨b, ha, hm, hc, -⟩ | ⟨b, ha, hm, hc, -⟩)
    · exact ⟨b, ha, hm, hc⟩
    · exact ⟨b, ha, hm, hc⟩
  · rintro ⟨b, ha, hm, hc⟩
    cases digit : (zerosBelow m b).testBit i with
    | false => exact .inl ⟨b, ha, hm, hc, digit⟩
    | true => exact .inr ⟨b, ha, hm, hc, digit⟩

end

theorem stages_take_succ (i : Fin 6) : stages.take (i.val + 1) = stages.take i.val ++ [i] := by revert i; decide

/-- The running value before stage `i` of gather (R54, R55). -/
theorem gatherRun_gatheredTo (a m : Word) {i : Nat} (hi : i ≤ 6) :
    GatheredTo a m (gatherRun (ppp m) a (stages.take i)) i := by
  induction i with
  | zero => exact gatheredTo_premask a m
  | succ i ih =>
    rw [stages_take_succ ⟨i, hi⟩, gatherRun_append]
    exact GatheredTo.stage (i := ⟨i, hi⟩) (ih (by omega))

/-! ## The result of gather -/

/-- R57: the bits of the result are the selected bits, each as much lower as unset positions lie below it. -/
theorem gather_getLsbD_iff (a m : Word) (c : Nat) :
    (gather a (ppp m)).getLsbD c = true ↔
      ∃ b, a.getLsbD b = true ∧ m.getLsbD b = true ∧ b - zerosBelow m b = c := by
  refine (gatherRun_gatheredTo a m le_rfl c).trans ?_
  refine exists_congr fun b => and_congr_right' (and_congr_right fun hm => ?_)
  rw [gatherPos_six m (BitVec.lt_of_getLsbD hm)]

/-- R57: the bit at a selected position `b` lands at `b - ZB(m, b)`, and no other bit does. -/
theorem gather_getLsbD_landing (a : Word) {m : Word} {b : Nat} (hm : m.getLsbD b = true) :
    (gather a (ppp m)).getLsbD (b - zerosBelow m b) = a.getLsbD b := by
  rw [Bool.eq_iff_iff, gather_getLsbD_iff]
  refine ⟨fun ⟨b', ha, hm', hc⟩ => ?_, fun ha => ⟨b, ha, hm, rfl⟩⟩
  rw [← gatherPos_six m (BitVec.lt_of_getLsbD hm), ← gatherPos_six m (BitVec.lt_of_getLsbD hm')] at hc
  exact gatherPos_inj m 6 hm' hm hc ▸ ha

/-- R57: no bit lands at or above the number of selected positions. -/
theorem gather_getLsbD_of_length_le (a : Word) {m : Word} {k : Nat} (hk : (setPositions m).length ≤ k) :
    (gather a (ppp m)).getLsbD k = false := by
  rw [Bool.eq_false_iff, ne_eq, gather_getLsbD_iff]
  rintro ⟨b, -, hm, rfl⟩
  obtain ⟨j, hj, rfl⟩ := List.getElem_of_mem ((mem_setPositions m b).2 ⟨BitVec.lt_of_getLsbD hm, hm⟩)
  rw [setPositions_sub_zerosBelow m j hj] at hk
  omega

theorem gather_zero_mask (a : Word) : gather a (ppp 0) = 0 := by
  refine eq_zero_of_getLsbD fun c => ?_
  rw [gather_getLsbD_iff]
  rintro ⟨b, -, hm, -⟩
  simp at hm

theorem gather_allOnes_mask (a : Word) : gather a (ppp 0xFFFFFFFFFFFFFFFF) = a := by
  refine BitVec.eq_of_getLsbD_eq fun c hc => ?_
  have selected : (0xFFFFFFFFFFFFFFFF : Word).getLsbD c = true := by revert c; decide
  have landing := gather_getLsbD_landing a selected
  rwa [zerosBelow_allOnes hc.le, Nat.sub_zero] at landing

/-- A mask whose 64 bits are all set is the all-ones mask. -/
theorem eq_allOnes_of_zerosBelow {m : Word} (h : zerosBelow m 63 = 0) (top : m.getLsbD 63 = true) :
    m = 0xFFFFFFFFFFFFFFFF := by
  refine BitVec.eq_of_getLsbD_eq fun b hb => ?_
  have ones : (0xFFFFFFFFFFFFFFFF : Word).getLsbD b = true := by revert b; decide
  rw [ones]
  rcases Nat.lt_succ_iff_lt_or_eq.1 hb with hlt | rfl
  · exact (zerosBelow_eq_zero_iff m 63).1 h b hlt
  · exact top

/-- R58: only a bit with no unset position below it stays at bit 63. -/
theorem gather_getLsbD_top (a : Word) {m : Word} (top : m.getLsbD 63 = true) (h : m ≠ 0xFFFFFFFFFFFFFFFF) :
    (gather a (ppp m)).getLsbD 63 = false := by
  rw [Bool.eq_false_iff, ne_eq, gather_getLsbD_iff]
  rintro ⟨b, -, hm, hc⟩
  have hb : b < 64 := BitVec.lt_of_getLsbD hm
  obtain rfl : b = 63 := by omega
  exact h (eq_allOnes_of_zerosBelow (by omega) top)

end Sys2Proof.Machine
end

section
/-! The obligations of the gather engine's family (spec file 42), settled. -/

namespace Sys2Proof.Machine

/-- Settles O13: before every stage the running value holds the selected bits at places of their own. -/
theorem gatherStagesNeverCollide : Obligations.GatherStagesNeverCollide := by
  intro a m i v
  have disjoint : gatherStay (ppp m) v i &&& gatherMove (ppp m) v i = 0 :=
    (gatherRun_gatheredTo a m i.isLt.le).stay_and_move
  exact ⟨disjoint, or_eq_xor_of_and_eq_zero disjoint, (BitVec.add_eq_or_of_and_eq_zero _ _ disjoint).symm⟩

/-- Settles O14: `b_k` stands above `k` by the unset positions below it, which is how far gather takes its bit down. -/
theorem gatherPacksSelectedBits : Obligations.GatherPacksSelectedBits := by
  intro a m
  refine ⟨?_, fun k h => ?_, fun k hk => gather_getLsbD_of_length_le a hk, fun b _ hm => gather_getLsbD_landing a hm⟩
  · rw [popcount_toNat, onesCount_eq_length_setPositions]
  · have selected := ((mem_setPositions m _).1 (List.getElem_mem h)).2
    have landing := gather_getLsbD_landing a selected
    rwa [setPositions_sub_zerosBelow m k h] at landing

/-- Settles O15: the mask 0 selects no bit, the all-ones mask moves none, and under every other mask the bit of
position 63 comes down. -/
theorem gatherEdgeCases : Obligations.GatherEdgeCases := by
  refine fun a => ⟨gather_zero_mask a, gather_allOnes_mask a, fun m top => ?_⟩
  split
  next h => rw [h, gather_allOnes_mask]
  next h => exact gather_getLsbD_top a top h

/-- Settles O26: a command through a valid slot answers with the slot's structure. -/
theorem slotCommandsAnswer : Obligations.SlotCommandsAnswer := by
  intro s k p hp
  have pextp := exec_completesWith (.pextp k) s
  have pdepp := exec_completesWith (.pdepp k) s
  simp only [execDecoded, execOnSlot_of_some hp] at pextp pdepp
  exact ⟨pextp, pdepp⟩

/-- Settles O24, by the rows of PEXT and PDEP in the table of `EXEC`. -/
theorem oneShotCommandsAnswer : Obligations.OneShotCommandsAnswer := fun s =>
  ⟨exec_completesWith .pext s, exec_completesWith .pdep s⟩

/-- Settles O34: the reuse forms ignore `cmd_b`, and a coherent slot holds what the one-shot forms build from its
mask. -/
theorem storedStructureAgreesWithOneShot : Obligations.StoredStructureAgreesWithOneShot := by
  intro s k p coherent hp
  obtain ⟨pextp, pdepp⟩ := slotCommandsAnswer (withB s p.mask) k p hp
  obtain ⟨pext, pdep⟩ := oneShotCommandsAnswer (withB s p.mask)
  have built : ppp (withB s p.mask).pins.cmd.b = p := (coherent (slotIndex k) p hp).symm
  rw [built] at pext pdep
  exact ⟨(exec_withB rfl s p.mask).symm.trans (pextp.trans pext.symm),
    (exec_withB rfl s p.mask).symm.trans (pdepp.trans pdep.symm)⟩

end Sys2Proof.Machine
end

section
/-! SUPPORT. What scatter does with a low bit, said once (R63 to R72): its stages take the bits back along the places of
gather, `gatherPos`, from the packed ones to the selected positions, so that before stage `i` of scatter the running
value is what gather has after stage `i` of the word that scatter answers. -/

namespace Sys2Proof.Machine

/-! ## The low-bits mask and the pre-mask -/

/-- R63: bit by bit, both cases of `LOWMASK`. -/
theorem lowMask_getLsbD (p : BitVec 7) {b : Nat} (hb : b < 64) : (lowMask p).getLsbD b = decide (b < p.toNat) := by
  rw [lowMask]
  split
  next h =>
    subst h
    revert b
    decide
  next =>
    have ones : ((1 <<< p.toNat : Nat) : Word) - 1 = BitVec.ofNat 64 (2 ^ p.toNat - 1) := by
      rw [Nat.one_shiftLeft]
      exact BitVec.ofNat_sub_ofNat_of_le _ 1 (by decide) (Nat.two_pow_pos _)
    rw [ones, BitVec.getLsbD_ofNat, Nat.testBit_two_pow_sub_one, decide_eq_true hb, Bool.true_and]

/-- R64: `ZERO_HIGH` keeps the bits below the count. -/
theorem zeroHigh_getLsbD (a : Word) (p : BitVec 7) {b : Nat} (hb : b < 64) :
    (zeroHigh a p).getLsbD b = (decide (b < p.toNat) && a.getLsbD b) := by
  rw [zeroHigh, BitVec.getLsbD_ofNat, Nat.testBit_mod_two_pow, decide_eq_true hb, Bool.true_and]
  rfl

theorem premaskBy_eq (impl : PremaskImpl) (a : Word) (p : BitVec 7) : premaskBy impl a p = a &&& lowMask p := by
  cases impl with
  | select => rfl
  | zeroHigh =>
    refine BitVec.eq_of_getLsbD_eq fun b hb => ?_
    rw [premaskBy, zeroHigh_getLsbD a p hb, BitVec.getLsbD_and, lowMask_getLsbD p hb, Bool.and_comm]

theorem popcount_toNat_le (x : Word) : (popcount x).toNat ≤ 64 := by
  rw [popcount_toNat]
  simpa [onesCount] using List.countP_le_length (l := List.range 64) (p := fun k => x.getLsbD k)

theorem popcount_toNat_eq_length (m : Word) : (popcount m).toNat = (setPositions m).length :=
  (popcount_toNat m).trans (onesCount_eq_length_setPositions m)

/-- The pre-mask of scatter keeps as many low bits as the mask selects positions (R66). -/
theorem premask_popcount_getLsbD (a m : Word) (k : Nat) :
    (premask a (popcount m)).getLsbD k = (a.getLsbD k && decide (k < (setPositions m).length)) := by
  by_cases hk : k < 64
  · rw [premask, premaskBy, BitVec.getLsbD_and, lowMask_getLsbD _ hk, popcount_toNat_eq_length]
  · rw [BitVec.getLsbD_of_ge _ _ (Nat.le_of_not_lt hk), BitVec.getLsbD_of_ge _ _ (Nat.le_of_not_lt hk), Bool.false_and]

/-! ## The word that scatter answers -/

/-- The low bits of `a` at the selected positions of `m`, in order (R70): the position `b` takes the bit from where
gather would land its own. -/
def spread (a m : Word) : Word :=
  BitVec.ofFnLE fun b : Fin 64 => m.getLsbD b.val && a.getLsbD (b.val - zerosBelow m b.val)

theorem spread_getLsbD (a m : Word) (b : Nat) :
    (spread a m).getLsbD b = (m.getLsbD b && a.getLsbD (b - zerosBelow m b)) := by
  rw [spread, BitVec.getLsbD_ofFnLE]
  split
  next => rfl
  next hb => rw [BitVec.getLsbD_of_ge m b (Nat.le_of_not_lt hb), Bool.false_and]

/-- R70: the selected position `b_k` takes bit `k`. -/
theorem spread_getLsbD_setPositions (a m : Word) (k : Nat) (h : k < (setPositions m).length) :
    (spread a m).getLsbD (setPositions m)[k] = a.getLsbD k := by
  have selected := ((mem_setPositions m _).1 (List.getElem_mem h)).2
  rw [spread_getLsbD, selected, setPositions_sub_zerosBelow m k h, Bool.true_and]

/-- Spreading what was gathered gives the selected bits back (R72). -/
theorem spread_gather (v m : Word) : spread (gather v (ppp m)) m = v &&& m := by
  refine BitVec.eq_of_getLsbD_eq fun b _ => ?_
  rw [spread_getLsbD, BitVec.getLsbD_and, Bool.and_comm]
  cases hm : m.getLsbD b with
  | false => rw [Bool.and_false, Bool.and_false]
  | true => rw [gather_getLsbD_landing v hm]

/-- Gathering what was spread gives the low bits that the pre-mask of scatter keeps (R72). -/
theorem gather_spread (a m : Word) : gather (spread a m) (ppp m) = premask a (popcount m) := by
  refine BitVec.eq_of_getLsbD_eq fun k _ => ?_
  rw [premask_popcount_getLsbD]
  by_cases hk : k < (setPositions m).length
  · obtain ⟨-, packed, -, -⟩ := gatherPacksSelectedBits (spread a m) m
    rw [packed k hk, spread_getLsbD_setPositions a m k hk, decide_eq_true hk, Bool.and_true]
  · rw [gather_getLsbD_of_length_le _ (Nat.le_of_not_lt hk), decide_eq_false hk, Bool.and_false]

/-! ## The planes, shifted back -/

/-- A distance of `2^i` above where gather has taken a selected bit after stage `i`, digit `i` of the count is still the
bit's own (R68). If the bit moved, it came from there; if it stayed, the count does not reach the next multiple of `2^i`
on the way up, because the bit's own position is set. -/
theorem zerosBelow_add_gatherPos_testBit (m : Word) (i : Nat) {b : Nat} (hm : m.getLsbD b = true) :
    (zerosBelow m (2 ^ i + gatherPos m (i + 1) b)).testBit i = (zerosBelow m b).testBit i := by
  cases digit : (zerosBelow m b).testBit i with
  | true =>
    have moved := gatherPos_succ m i b
    rw [digit, Bool.toNat_true, Nat.mul_one] at moved
    rw [← moved, zerosBelow_gatherPos_testBit, digit]
  | false =>
    have stayed := gatherPos_succ m i b
    rw [digit, Bool.toNat_false, Nat.mul_zero, Nat.zero_add, gatherPos] at stayed
    have passed : zerosBelow m b % 2 ^ i ≤ b := (Nat.mod_le _ _).trans (zerosBelow_le m b)
    have small : zerosBelow m b % 2 ^ i < 2 ^ i := Nat.mod_lt _ (Nat.two_pow_pos i)
    obtain ⟨r, above⟩ := Nat.exists_eq_add_of_lt small
    have place : 2 ^ i + gatherPos m (i + 1) b = b + 1 + r := by omega
    have lower : zerosBelow m b ≤ zerosBelow m (b + 1 + r) := zerosBelow_mono m (by omega)
    have upper : zerosBelow m (b + 1 + r) ≤ zerosBelow m b + r := by
      simpa only [zerosBelow_succ, if_pos hm, Nat.add_zero] using zerosBelow_sub_le m (b + 1) r
    have digits := Nat.div_add_mod (zerosBelow m b) (2 ^ i)
    have high : zerosBelow m (b + 1 + r) / 2 ^ i = zerosBelow m b / 2 ^ i := by
      refine Nat.le_antisymm (Nat.lt_succ_iff.1 (Nat.div_lt_of_lt_mul ?_)) (Nat.div_le_div_right lower)
      rw [Nat.mul_succ]
      omega
    rw [place, Nat.testBit_eq_decide_div_mod_eq, high, ← Nat.testBit_eq_decide_div_mod_eq, digit]

/-- R68: where gather has taken the bit of position `b` after stage `i`, the plane shifted back tells whether it moved
at that stage. -/
theorem scatterBits_gatherPos (m : Word) (i : Fin 6) {b : Nat} (hm : m.getLsbD b = true) :
    (scatterBits (ppp m) i).getLsbD (gatherPos m (i + 1) b) = (zerosBelow m b).testBit i := by
  rw [scatterBits_getLsbD, shiftAmount]
  by_cases inside : 2 ^ i.val + gatherPos m (i + 1) b < 64
  · rw [ppp_plane_getLsbD m i inside, zerosBelow_add_gatherPos_testBit m i hm]
  · rw [BitVec.getLsbD_of_ge _ _ (Nat.le_of_not_lt inside)]
    cases digit : (zerosBelow m b).testBit i with
    | false => rfl
    | true =>
      have hb : b < 64 := BitVec.lt_of_getLsbD hm
      have := gatherPos_le m i b
      have moved := gatherPos_succ m i b
      rw [digit, Bool.toNat_true, Nat.mul_one] at moved
      omega

/-! ## The running value of scatter -/

theorem scatterStay_getLsbD_iff (p : PppStruct) (v : Word) (i : Fin 6) (c : Nat) :
    (scatterStay p v i).getLsbD c = true ↔ v.getLsbD c = true ∧ (scatterBits p i).getLsbD c = false := by
  simp only [scatterStay, BitVec.getLsbD_and, BitVec.getLsbD_not, Bool.and_eq_true, Bool.not_eq_true',
    decide_eq_true_iff]
  exact ⟨fun ⟨hv, _, hp⟩ => ⟨hv, hp⟩, fun ⟨hv, hp⟩ => ⟨hv, BitVec.lt_of_getLsbD hv, hp⟩⟩

theorem scatterMove_getLsbD_iff (p : PppStruct) (v : Word) (i : Fin 6) (c : Nat) :
    (scatterMove p v i).getLsbD c = true ↔
      c < 64 ∧ ∃ c', (v.getLsbD c' = true ∧ (scatterBits p i).getLsbD c' = true) ∧ shiftAmount i + c' = c := by
  simp only [scatterMove_getLsbD, Bool.and_eq_true,
    Bool.not_eq_true', decide_eq_true_iff, decide_eq_false_iff_not, Nat.not_lt]
  constructor
  · rintro ⟨⟨hc, above⟩, moves⟩
    exact ⟨hc, _, moves, Nat.add_sub_cancel' above⟩
  · rintro ⟨hc, c', moves, rfl⟩
    exact ⟨⟨hc, Nat.le_add_right _ _⟩, by rwa [Nat.add_sub_cancel_left]⟩

/-- R69: a plane shifted back has no bit whose shift passes bit 63. -/
theorem scatterMove_ushiftRight (p : PppStruct) (v : Word) (i : Fin 6) :
    scatterMove p v i >>> shiftAmount i = v &&& scatterBits p i := by
  refine BitVec.eq_of_getLsbD_eq fun c _ => ?_
  rw [BitVec.getLsbD_ushiftRight, scatterMove_getLsbD, BitVec.getLsbD_and, Nat.add_sub_cancel_left,
    decide_eq_false (Nat.not_lt.2 (Nat.le_add_right _ c))]
  by_cases inside : shiftAmount i + c < 64
  · simp [inside]
  · simp [scatterBits_getLsbD, BitVec.getLsbD_of_ge _ _ (Nat.le_of_not_lt inside)]

section

variable {w m v : Word} {i : Fin 6}

/-- The plane shifted back splits what gather has after stage `i` by digit `i` of the count below each bit's origin. -/
theorem GatheredTo.scatterBits_iff (h : GatheredTo w m v (i + 1)) (c : Nat) (digit : Bool) :
    (v.getLsbD c = true ∧ (scatterBits (ppp m) i).getLsbD c = digit) ↔
      ∃ b, w.getLsbD b = true ∧ m.getLsbD b = true ∧ gatherPos m (i + 1) b = c ∧
        (zerosBelow m b).testBit i = digit := by
  rw [h c]
  constructor
  · rintro ⟨⟨b, hw, hm, rfl⟩, hp⟩
    exact ⟨b, hw, hm, rfl, (scatterBits_gatherPos m i hm).symm.trans hp⟩
  · rintro ⟨b, hw, hm, rfl, hd⟩
    exact ⟨⟨b, hw, hm, rfl⟩, (scatterBits_gatherPos m i hm).trans hd⟩

/-- The bits that stay at stage `i` of scatter are those whose digit `i` is 0. -/
theorem GatheredTo.scatterStay_iff (h : GatheredTo w m v (i + 1)) (c : Nat) :
    (scatterStay (ppp m) v i).getLsbD c = true ↔
      ∃ b, w.getLsbD b = true ∧ m.getLsbD b = true ∧ gatherPos m i b = c ∧ (zerosBelow m b).testBit i = false := by
  rw [scatterStay_getLsbD_iff, h.scatterBits_iff]
  refine exists_congr fun b => and_congr_right' (and_congr_right' (and_congr_left fun hd => ?_))
  rw [gatherPos_succ m i, hd, Bool.toNat_false, Nat.mul_zero, Nat.zero_add]

/-- The bits that move at stage `i` of scatter are those whose digit `i` is 1. -/
theorem GatheredTo.scatterMove_iff (h : GatheredTo w m v (i + 1)) (c : Nat) :
    (scatterMove (ppp m) v i).getLsbD c = true ↔
      ∃ b, w.getLsbD b = true ∧ m.getLsbD b = true ∧ gatherPos m i b = c ∧ (zerosBelow m b).testBit i = true := by
  have back {b : Nat} (hd : (zerosBelow m b).testBit i = true) :
      gatherPos m i b = shiftAmount i + gatherPos m (i + 1) b := by
    rw [shiftAmount, gatherPos_succ, hd, Bool.toNat_true, Nat.mul_one]
  simp only [scatterMove_getLsbD_iff, h.scatterBits_iff]
  constructor
  · rintro ⟨-, -, ⟨b, hw, hm, rfl, hd⟩, rfl⟩
    exact ⟨b, hw, hm, back hd, hd⟩
  · rintro ⟨b, hw, hm, rfl, hd⟩
    exact ⟨(gatherPos_le m i b).trans_lt (BitVec.lt_of_getLsbD hm), _, ⟨b, hw, hm, rfl, hd⟩, (back hd).symm⟩

/-- R69: a bit that stays and a bit that moves to its place would be one bit with two digits. -/
theorem GatheredTo.scatterStay_and_scatterMove (h : GatheredTo w m v (i + 1)) :
    scatterStay (ppp m) v i &&& scatterMove (ppp m) v i = 0 := by
  refine eq_zero_of_getLsbD fun c => ?_
  rw [BitVec.getLsbD_and, Bool.and_eq_true, h.scatterStay_iff, h.scatterMove_iff]
  rintro ⟨⟨b, -, hm, hc, stays⟩, b', -, hm', hc', moves⟩
  obtain rfl : b = b' := gatherPos_inj m i hm hm' (hc.trans hc'.symm)
  rw [stays] at moves
  cases moves

/-- Stage `i` of scatter takes every bit back to where it stood before stage `i` of gather. -/
theorem GatheredTo.scatterStage (h : GatheredTo w m v (i + 1)) : GatheredTo w m (scatterStage (ppp m) v i) i := by
  intro c
  rw [scatterStage_eq_or _ _ _ h.scatterStay_and_scatterMove, BitVec.getLsbD_or, Bool.or_eq_true, h.scatterStay_iff,
    h.scatterMove_iff]
  constructor
  · rintro (⟨b, hw, hm, hc, -⟩ | ⟨b, hw, hm, hc, -⟩)
    · exact ⟨b, hw, hm, hc⟩
    · exact ⟨b, hw, hm, hc⟩
  · rintro ⟨b, hw, hm, hc⟩
    cases digit : (zerosBelow m b).testBit i with
    | false => exact .inl ⟨b, hw, hm, hc, digit⟩
    | true => exact .inr ⟨b, hw, hm, hc, digit⟩

end

/-- The pre-mask of scatter leaves what gather makes of the word that scatter answers. -/
theorem gatheredTo_scatter_premask (a m : Word) : GatheredTo (spread a m) m (premask a (popcount m)) 6 :=
  gather_spread a m ▸ gatherRun_gatheredTo (spread a m) m le_rfl

theorem stages_reverse_take (i : Fin 6) :
    stages.reverse.take (6 - i.val) = stages.reverse.take (6 - (i.val + 1)) ++ [i] := by revert i; decide

/-- The running value of scatter where the stages below `i` are still to come (R66, R67). -/
theorem scatterRun_gatheredTo (a m : Word) {i : Nat} (hi : i ≤ 6) :
    GatheredTo (spread a m) m (scatterRun (ppp m) a (stages.reverse.take (6 - i))) i := by
  induction hi using Nat.decreasingInduction with
  | self => exact gatheredTo_scatter_premask a m
  | of_succ i hi ih =>
    rw [stages_reverse_take ⟨i, hi⟩, scatterRun_append]
    exact GatheredTo.scatterStage (i := ⟨i, hi⟩) ih

/-! ## The result of scatter -/

/-- R70: after its six stages scatter has the low bits of `a` at the selected positions. -/
theorem scatter_eq_spread (a m : Word) : scatter a (ppp m) = spread a m := by
  refine BitVec.eq_of_getLsbD_eq fun c _ => Bool.eq_iff_iff.2 ((scatterRun_gatheredTo a m (Nat.zero_le 6) c).trans ?_)
  simp only [gatherPos_zero]
  constructor
  · rintro ⟨c, hs, -, rfl⟩
    exact hs
  · intro hs
    have hm : m.getLsbD c = true := by
      rw [spread_getLsbD, Bool.and_eq_true] at hs
      exact hs.1
    exact ⟨c, hs, hm, rfl⟩

theorem scatter_getLsbD_of_unset (a : Word) {m : Word} {b : Nat} (hm : m.getLsbD b = false) :
    (scatter a (ppp m)).getLsbD b = false := by
  rw [scatter_eq_spread, spread_getLsbD, hm, Bool.false_and]

theorem scatter_getLsbD_setPositions (a m : Word) (k : Nat) (h : k < (setPositions m).length) :
    (scatter a (ppp m)).getLsbD (setPositions m)[k] = a.getLsbD k := by
  rw [scatter_eq_spread, spread_getLsbD_setPositions a m k h]

/-- R70: the result depends on no bit of the input from `POPCOUNT(m)` on. -/
theorem scatter_congr {a a' m : Word} (h : ∀ k < (setPositions m).length, a'.getLsbD k = a.getLsbD k) :
    scatter a' (ppp m) = scatter a (ppp m) := by
  have masked : premask a' (popcount m) = premask a (popcount m) := by
    refine BitVec.eq_of_getLsbD_eq fun k _ => ?_
    rw [premask_popcount_getLsbD, premask_popcount_getLsbD]
    by_cases hk : k < (setPositions m).length
    · rw [h k hk]
    · rw [decide_eq_false hk, Bool.and_false, Bool.and_false]
  rw [scatter, scatterRun, ppp_mask, masked]
  rfl

theorem scatter_zero_mask (a : Word) : scatter a (ppp 0) = 0 :=
  eq_zero_of_getLsbD fun _ => Bool.eq_false_iff.1 (scatter_getLsbD_of_unset a BitVec.getLsbD_zero)

theorem scatter_allOnes_mask (a : Word) : scatter a (ppp 0xFFFFFFFFFFFFFFFF) = a := by
  rw [← gather_allOnes_mask a, scatter_eq_spread, spread_gather, gather_allOnes_mask]
  exact BitVec.and_allOnes

/-- A scatter stage makes nothing of no bits. -/
theorem scatterStage_zero (p : PppStruct) (i : Fin 6) : scatterStage p 0 i = 0 := by
  simp [scatterStage, scatterStay, scatterMove]

end Sys2Proof.Machine
end

section
/-! The obligations of the scatter engine's family (spec file 43), settled. -/

namespace Sys2Proof.Machine

/-- Settles O17, by the bits of either case of `LOWMASK`. -/
theorem lowMaskBits : Obligations.LowMaskBits := fun p _ _ hb => lowMask_getLsbD p hb

/-- Settles O16: the sums over halves count the set bits, and there are 64 positions to count. -/
theorem popcountCountsOnes : Obligations.PopcountCountsOnes := fun x => ⟨popcount_toNat x, popcount_toNat_le x⟩

/-- Settles O18: both forms keep the bits below the count. -/
theorem premaskFormsAreEquivalent : Obligations.PremaskFormsAreEquivalent := fun impl a p _ => premaskBy_eq impl a p

/-- Settles O19: before every stage the running value holds the bits at places of gather, which are their own. -/
theorem scatterStagesNeverCollide : Obligations.ScatterStagesNeverCollide := by
  intro a m i v
  have running : GatheredTo (spread a m) m v (i + 1) := by
    have := scatterRun_gatheredTo a m (i := i + 1) i.isLt
    rwa [Nat.add_sub_add_right 5 1] at this
  have disjoint : scatterStay (ppp m) v i &&& scatterMove (ppp m) v i = 0 := running.scatterStay_and_scatterMove
  have asOr : scatterStage (ppp m) v i = scatterStay (ppp m) v i ||| scatterMove (ppp m) v i :=
    scatterStage_eq_or _ _ _ disjoint
  exact ⟨disjoint, scatterMove_ushiftRight _ _ _, asOr, asOr.trans (or_eq_xor_of_and_eq_zero disjoint)⟩

/-- Settles O20: the result is the low bits at the selected positions. -/
theorem scatterSpreadsLowBits : Obligations.ScatterSpreadsLowBits := fun a m =>
  ⟨popcount_toNat_eq_length m, scatter_getLsbD_setPositions a m, fun _ _ hm => scatter_getLsbD_of_unset a hm,
    fun _ h => scatter_congr h⟩

/-- Settles O21: the mask 0 selects no position, the all-ones mask selects every one, and its count modulo 64 is 0, which
would leave no bit to scatter. -/
theorem scatterEdgeCases : Obligations.ScatterEdgeCases := by
  refine fun a => ⟨scatter_zero_mask a, scatter_allOnes_mask a, ?_⟩
  have masked : a &&& ((1 <<< ((popcount 0xFFFFFFFFFFFFFFFF).toNat % 64)) - 1) = 0 := by
    rw [show (popcount 0xFFFFFFFFFFFFFFFF).toNat = 64 by decide]
    exact BitVec.and_zero
  rw [masked]
  exact List.foldl_fixed' (scatterStage_zero _) _

/-- Settles O22: scatter answers the word that gather packs into the low bits. -/
theorem gatherAndScatterAreInverse : Obligations.GatherAndScatterAreInverse := by
  refine fun m a v => ⟨fun hv => ?_, ?_⟩
  · rw [scatter_eq_spread, spread_gather, hv]
  · rw [scatter_eq_spread, gather_spread]
    rfl

end Sys2Proof.Machine
end

section
/-! SUPPORT. The INFO word by its fields (R75), said once: the bits that read the slot file and the build, the fields that
are fixed, and the word as the OR of its fields; then what `EXEC` reads of the build (R76). -/

namespace Sys2Proof.Machine

/-! ## The fields of the INFO word -/

theorem validBits_getLsbD (S : SlotFile) (k : Fin 4) : (validBits S).getLsbD k.val = slotValid S k := by
  fin_cases k <;> simp only [validBits, BitVec.getLsbD_append] <;> simp

@[simp] theorem validBits_cleared : validBits SlotFile.cleared = 0 := by decide

theorem prefixBit_getLsbD (impl : PrefixImpl) : (prefixBit impl).getLsbD 0 = decide (impl = .clmul) := by
  cases impl <;> rfl

theorem popcntBit_getLsbD (impl : PopcntImpl) : (popcntBit impl).getLsbD 0 = decide (impl = .native) := by
  cases impl <;> rfl

theorem premaskBit_getLsbD (impl : PremaskImpl) : (premaskBit impl).getLsbD 0 = decide (impl = .zeroHigh) := by
  cases impl <;> rfl

theorem infoWord_getLsbD_valid (b : Build) (S : SlotFile) (k : Fin 4) :
    (infoWord b S).getLsbD k.val = slotValid S k := by
  rw [infoWord, BitVec.getLsbD_append, if_pos k.isLt, validBits_getLsbD]

theorem infoWord_getLsbD_build (b : Build) (S : SlotFile) :
    (infoWord b S).getLsbD 8 = (prefixBit b.prefixImpl).getLsbD 0 ∧
      (infoWord b S).getLsbD 9 = (popcntBit b.popcntImpl).getLsbD 0 ∧
      (infoWord b S).getLsbD 10 = (premaskBit b.premaskImpl).getLsbD 0 := by
  simp only [infoWord, BitVec.getLsbD_append, Nat.reduceLT, Nat.reduceSub, if_true, if_false, Nat.lt_irrefl,
    and_self]

/-- The reserved fields, NSLOTS and VERSION do not depend on the build or the slot file. -/
theorem infoWord_fixed_fields (b : Build) (S : SlotFile) :
    (infoWord b S).extractLsb 7 4 = 0 ∧ (infoWord b S).extractLsb 15 11 = 0 ∧
      (infoWord b S).extractLsb 23 16 = 4 ∧ (infoWord b S).extractLsb 31 24 = 1 ∧
      (infoWord b S).extractLsb 63 32 = 0 := by
  refine ⟨?_, ?_, ?_, ?_, ?_⟩ <;>
    simp (disch := decide) only [infoWord, BitVec.extractLsb, BitVec.extractLsb'_append_eq_of_le,
      BitVec.extractLsb'_append_eq_of_add_le] <;> rfl

/-- The INFO word is its fixed fields, VERSION 1 and NSLOTS 4, with the VALID bits and the build's three bits put in:
seven bits vary. -/
theorem infoWord_eq_or_shifts (b : Build) (S : SlotFile) :
    infoWord b S = 0x0000000001040000 ||| (validBits S).setWidth 64 ||| (prefixBit b.prefixImpl).setWidth 64 <<< 8 |||
      (popcntBit b.popcntImpl).setWidth 64 <<< 9 ||| (premaskBit b.premaskImpl).setWidth 64 <<< 10 := by
  unfold infoWord
  generalize validBits S = v
  generalize prefixBit b.prefixImpl = x
  generalize popcntBit b.popcntImpl = y
  generalize premaskBit b.premaskImpl = z
  revert v x y z
  decide

/-- A bit shifted to position `k` shows at no other position. -/
theorem setWidth_shiftLeft_getLsbD_of_ne (x : BitVec 1) {k n : Nat} (h : n ≠ k) :
    (x.setWidth 64 <<< k).getLsbD n = false := by
  rcases h.lt_or_gt with below | above
  · simp [below]
  · simp [BitVec.getLsbD_of_ge x (n - k) (by omega)]

/-- The build shows in the INFO word at bits 8 to 10 only (R76). -/
theorem infoWord_getLsbD_congr_build (b b' : Build) (S : SlotFile) {n : Nat} (hn : n < 8 ∨ 10 < n) :
    (infoWord b S).getLsbD n = (infoWord b' S).getLsbD n := by
  have h8 : n ≠ 8 := by omega
  have h9 : n ≠ 9 := by omega
  have h10 : n ≠ 10 := by omega
  simp only [infoWord_eq_or_shifts, BitVec.getLsbD_or, setWidth_shiftLeft_getLsbD_of_ne _ h8,
    setWidth_shiftLeft_getLsbD_of_ne _ h9, setWidth_shiftLeft_getLsbD_of_ne _ h10]

/-! ## The build and the commands -/

/-- `EXEC` looks at the build for INFO only (R76). -/
theorem execDecoded_congr_build {i : Instr} (hi : i ≠ .info) (b b' : Build) (S : SlotFile) (A B : Word) :
    execDecoded b S A B i = execDecoded b' S A B i := by
  cases i with
  | info => exact absurd rfl hi
  | pext => rfl
  | pdep => rfl
  | ppp k => rfl
  | pextp k => rfl
  | pdepp k => rfl
  | ppprd k j => rfl

theorem responseWait_withBuild {s : State} {b : Build} (latency : b.latencyExtra = s.build.latencyExtra) :
    responseWait (withBuild s b) = responseWait s := congrArg (· + Config.responseDelay s.tick) latency

theorem exec_withBuild {i : Instr} (hi : i ≠ .info) {s : State} {b : Build}
    (latency : b.latencyExtra = s.build.latencyExtra) :
    exec i (withBuild s b) = mapNext (withBuild · b) (exec i s) := by
  have same := execDecoded_congr_build hi b s.build s.slots s.pins.cmd.a s.pins.cmd.b
  rw [exec_completesWith i s]
  refine (exec_completesWith i (withBuild s b)).trans ?_
  rw [responseWait_withBuild latency]
  simp only [withBuild, same]
  rfl

/-- INFO answers the status word (R77): its row of the case table of `EXEC`. -/
theorem info_completesWith (s : State) :
    CompletesWith (exec .info s) s s.slots ⟨.ok, infoWord s.build s.slots⟩ := exec_completesWith .info s

end Sys2Proof.Machine
end

section
/-! The obligations of the control family (spec file 44), settled. -/

namespace Sys2Proof.Machine

/-- Settles O30: each field of the word, and the word as the OR of its fields where no VALID bit is set. -/
theorem infoWordFields : Obligations.InfoWordFields := by
  intro b S
  obtain ⟨bit8, bit9, bit10⟩ := infoWord_getLsbD_build b S
  obtain ⟨reserved4, reserved11, nslots, version, reserved32⟩ := infoWord_fixed_fields b S
  refine ⟨infoWord_getLsbD_valid b S, reserved4, bit8.trans (prefixBit_getLsbD _), bit9.trans (popcntBit_getLsbD _),
    bit10.trans (premaskBit_getLsbD _), reserved11, nslots, version, reserved32, ?_⟩
  simp [infoWord_eq_or_shifts]

/-- Settles O31: `EXEC` reads the build for INFO alone, the queue reads only its LATENCY, and the two INFO words differ at
the build's own three bits at most. -/
theorem onlyInfoShowsTheBuild : Obligations.OnlyInfoShowsTheBuild := fun s b latency =>
  ⟨fun _ hi => exec_withBuild hi latency, infoWord s.build s.slots, infoWord b s.slots, info_completesWith s,
    info_completesWith (withBuild s b), fun _ hn => infoWord_getLsbD_congr_build s.build b s.slots hn⟩

/-- Settles O23: INFO's row of the case table of `EXEC`. -/
theorem infoAnswersStatusWord : Obligations.InfoAnswersStatusWord := info_completesWith

end Sys2Proof.Machine
end

section
/-! SUPPORT. What `DECODE` refuses (R38, R80), said once: the words that each part of the decoder finds illegal, up to the
five conditions on the fields of a word. -/

namespace Sys2Proof

theorem exists_decodePlain_eq_error_iff (i : Instr) (k : SlotField) (j : IdxField) :
    (∃ e, decodePlain i k j = .error e) ↔ k ≠ 0 ∨ j ≠ 0 := by
  unfold decodePlain
  split_ifs with hk hj
  · exact iff_of_true ⟨_, rfl⟩ (.inl hk)
  · exact iff_of_true ⟨_, rfl⟩ (.inr hj)
  · simp [not_not.1 hk, not_not.1 hj]

theorem exists_decodeSlot_eq_error_iff (i : Instr) (j : IdxField) :
    (∃ e, decodeSlot i j = .error e) ↔ j ≠ 0 := by
  unfold decodeSlot
  split_ifs with hj
  · exact iff_of_true ⟨_, rfl⟩ hj
  · simp [not_not.1 hj]

theorem exists_decodeRead_eq_error_iff (k : SlotField) (j : IdxField) :
    (∃ e, decodeRead k j = .error e) ↔ j = 7 := by
  unfold decodeRead
  split_ifs with hj
  · simpa [idxNamesWord] using hj
  · simpa [idxNamesWord] using hj

/-- The conditions of R80 on OP, SLOT and IDX, row by row of the case table of `DECODE`. -/
theorem exists_decodeOp_eq_error_iff (op : BitVec 4) (k : SlotField) (j : IdxField) :
    (∃ e, decodeOp op k j = .error e) ↔
      7 ≤ op.toNat ∨ (op.toNat ≤ 2 ∧ k ≠ 0) ∨ (op.toNat ≠ 6 ∧ j ≠ 0) ∨ (op.toNat = 6 ∧ j = 7) := by
  unfold decodeOp
  split_ifs with h0 h1 h2 h3 h4 h5 h6
  · simp [exists_decodePlain_eq_error_iff, h0]
  · simp [exists_decodePlain_eq_error_iff, h1]
  · simp [exists_decodePlain_eq_error_iff, h2]
  · simp [exists_decodeSlot_eq_error_iff, h3]
  · simp [exists_decodeSlot_eq_error_iff, h4]
  · simp [exists_decodeSlot_eq_error_iff, h5]
  · simp [exists_decodeRead_eq_error_iff, h6]
  · have reserved : 7 ≤ op.toNat := by bv_omega
    exact iff_of_true ⟨_, rfl⟩ (.inl reserved)

/-- R80: a word does not decode exactly where RSVD is not 0 or its other fields meet no row of the case table. -/
theorem exists_decode_eq_error_iff (w : CmdWord) :
    (∃ e, decode w = .error e) ↔
      rsvdField w ≠ 0 ∨ 7 ≤ (opField w).toNat ∨ ((opField w).toNat ≤ 2 ∧ slotField w ≠ 0) ∨
        ((opField w).toNat ≠ 6 ∧ idxField w ≠ 0) ∨ ((opField w).toNat = 6 ∧ idxField w = 7) := by
  unfold decode
  split_ifs with hrsvd
  · exact iff_of_true ⟨_, rfl⟩ (.inl hrsvd)
  · rw [exists_decodeOp_eq_error_iff, or_iff_right hrsvd]

end Sys2Proof
end

section
/-! SUPPORT. The three ends of a command (R40, R80 to R82), said once: the word does not decode and ILLEGAL is answered, it
needs a slot that is not built and EMPTY is answered, or the command answers OK. -/

namespace Sys2Proof.Machine

/-! ## The slot a command needs -/

/-- The slot that a command reads (R41), if any: the commands of R81 have one. -/
def slotRead : Instr → Option SlotField
  | .info => none
  | .pext => none
  | .pdep => none
  | .ppp _ => none
  | .pextp k => some k
  | .pdepp k => some k
  | .ppprd k _ => some k

theorem slotRead_eq_some_iff (i : Instr) (k : SlotField) :
    slotRead i = some k ↔ i = .pextp k ∨ i = .pdepp k ∨ ∃ j, i = .ppprd k j := by
  cases i <;> simp [slotRead]

/-- The command reads a slot of `S` that is not valid (R81). -/
def ReadsUnbuilt (S : SlotFile) (i : Instr) : Prop :=
  ∃ k, slotRead i = some k ∧ slotValid S (slotIndex k) = false

theorem not_readsUnbuilt_iff (S : SlotFile) (i : Instr) :
    ¬ReadsUnbuilt S i ↔ ∀ k, slotRead i = some k → slotValid S (slotIndex k) = true := by
  simp only [ReadsUnbuilt, not_exists, not_and, Bool.not_eq_false]

/-- R81's condition as a command word states it: which of the three commands it decodes to. -/
theorem decodes_readsUnbuilt_iff (w : CmdWord) (S : SlotFile) :
    (∃ i, decode w = .ok i ∧ ReadsUnbuilt S i) ↔
      ∃ k : SlotField, slotValid S (slotIndex k) = false ∧
        (decode w = .ok (.pextp k) ∨ decode w = .ok (.pdepp k) ∨ ∃ j, decode w = .ok (.ppprd k j)) := by
  constructor
  · rintro ⟨i, hi, k, hk, unbuilt⟩
    refine ⟨k, unbuilt, ?_⟩
    rcases (slotRead_eq_some_iff i k).1 hk with rfl | rfl | ⟨j, rfl⟩
    · exact .inl hi
    · exact .inr (.inl hi)
    · exact .inr (.inr ⟨j, hi⟩)
  · rintro ⟨k, unbuilt, h | h | ⟨j, h⟩⟩
    · exact ⟨_, h, k, rfl, unbuilt⟩
    · exact ⟨_, h, k, rfl, unbuilt⟩
    · exact ⟨_, h, k, rfl, unbuilt⟩

/-! ## How a decoded command ends -/

theorem execOnSlot_of_none {S : SlotFile} {k : SlotField} (h : S[slotIndex k] = none) (f : PppStruct → Word) :
    execOnSlot S k f = (S, ⟨.empty, 0⟩) := by
  simp only [execOnSlot, h]

theorem exists_wordIndex_of_idxNamesWord {j : IdxField} : idxNamesWord j = true → ∃ r, wordIndex j = some r := by
  revert j; decide

/-- A well-formed command that reads a slot does nothing but read it (R41). -/
theorem execDecoded_of_slotRead_some {i : Instr} {k : SlotField} (wf : i.wellFormed = true) (h : slotRead i = some k)
    (b : Build) (S : SlotFile) (A B : Word) : ∃ f, execDecoded b S A B i = execOnSlot S k f := by
  rcases (slotRead_eq_some_iff i k).1 h with rfl | rfl | ⟨j, rfl⟩
  · exact ⟨_, rfl⟩
  · exact ⟨_, rfl⟩
  · obtain ⟨r, hr⟩ := exists_wordIndex_of_idxNamesWord wf
    exact ⟨fun p => pppWord p r, by simp only [execDecoded, hr]⟩

/-- A command that reads no slot has no error to report. -/
theorem execDecoded_of_slotRead_none {i : Instr} (h : slotRead i = none) (b : Build) (S : SlotFile) (A B : Word) :
    ∃ T d, execDecoded b S A B i = (T, ⟨.ok, d⟩) := by
  cases i with
  | info => exact ⟨_, _, rfl⟩
  | pext => exact ⟨_, _, rfl⟩
  | pdep => exact ⟨_, _, rfl⟩
  | ppp k => exact ⟨_, _, rfl⟩
  | pextp k => cases h
  | pdepp k => cases h
  | ppprd k j => cases h

/-- A decoded command answers (EMPTY, 0) and writes nothing where it reads a slot that is not built, and OK elsewhere
(R78, R81). -/
theorem execDecoded_cases {i : Instr} (wf : i.wellFormed = true) (b : Build) (S : SlotFile) (A B : Word) :
    (ReadsUnbuilt S i ∧ execDecoded b S A B i = (S, ⟨.empty, 0⟩)) ∨
      (¬ReadsUnbuilt S i ∧ ∃ T d, execDecoded b S A B i = (T, ⟨.ok, d⟩)) := by
  cases h : slotRead i with
  | none => exact .inr ⟨by simp [ReadsUnbuilt, h], execDecoded_of_slotRead_none h b S A B⟩
  | some k =>
    obtain ⟨f, hf⟩ := execDecoded_of_slotRead_some wf h b S A B
    cases hS : S[slotIndex k] with
    | none =>
      have unbuilt : slotValid S (slotIndex k) = false := by rw [slotValid, hS, Option.isSome_none]
      exact .inl ⟨⟨k, h, unbuilt⟩, hf.trans (execOnSlot_of_none hS f)⟩
    | some p =>
      have built : slotValid S (slotIndex k) = true := by rw [slotValid, hS, Option.isSome_some]
      exact .inr ⟨by simp [ReadsUnbuilt, h, built], S, f p, hf.trans (execOnSlot_of_some hS f)⟩

/-! ## How a command ends -/

/-- The three ends of a command word (R80, R81, R78), which exclude each other. -/
theorem execCommand_cases (b : Build) (S : SlotFile) (c : Command) :
    ((∃ e, decode c.word = .error e) ∧ execCommand b S c = (S, ⟨.illegal, 0⟩)) ∨
      ∃ i, decode c.word = .ok i ∧
        ((ReadsUnbuilt S i ∧ execCommand b S c = (S, ⟨.empty, 0⟩)) ∨
          (¬ReadsUnbuilt S i ∧ ∃ T d, execCommand b S c = (T, ⟨.ok, d⟩))) := by
  cases h : decode c.word with
  | error e => exact .inl ⟨⟨e, rfl⟩, execCommand_of_error h⟩
  | ok i =>
    rw [execCommand_of_ok h]
    exact .inr ⟨i, rfl, execDecoded_cases (encode_of_decode h).2 b S c.a c.b⟩

theorem execCommand_status_eq_illegal_iff (b : Build) (S : SlotFile) (c : Command) :
    (execCommand b S c).2.status = .illegal ↔ ∃ e, decode c.word = .error e := by
  rcases execCommand_cases b S c with ⟨he, h⟩ | ⟨i, hi, ⟨-, h⟩ | ⟨-, T, d, h⟩⟩
  · simp [h, he]
  · simp [h, hi]
  · simp [h, hi]

theorem execCommand_status_eq_empty_iff (b : Build) (S : SlotFile) (c : Command) :
    (execCommand b S c).2.status = .empty ↔ ∃ i, decode c.word = .ok i ∧ ReadsUnbuilt S i := by
  rcases execCommand_cases b S c with ⟨⟨e, he⟩, h⟩ | ⟨i, hi, ⟨hr, h⟩ | ⟨hr, T, d, h⟩⟩
  · simp [h, he]
  · simp [h, hi, hr]
  · simp [h, hi, hr]

/-- R82: a command that reports an error leaves the slot file and answers data 0. -/
theorem execCommand_of_status_ne_ok {b : Build} {S : SlotFile} {c : Command}
    (error : (execCommand b S c).2.status ≠ .ok) : (execCommand b S c).1 = S ∧ (execCommand b S c).2.data = 0 := by
  rcases execCommand_cases b S c with ⟨-, h⟩ | ⟨i, -, ⟨-, h⟩ | ⟨-, T, d, h⟩⟩
  · simp [h]
  · simp [h]
  · exact absurd (by rw [h]) error

/-- R78: a command whose word decodes and reads no slot that is not built completes with OK, whatever the operands on
the port are. -/
theorem runPort_completesWith_ok {s : State} {i : Instr} (hi : decode s.pins.cmd.word = .ok i)
    (built : ¬ReadsUnbuilt s.slots i) : ∃ (S : SlotFile) (d : Word), CompletesWith (runPort s) s S ⟨.ok, d⟩ := by
  have port := exec_completesWith i s
  rw [← runPort_ok hi] at port
  rcases execDecoded_cases (encode_of_decode hi).2 s.build s.slots s.pins.cmd.a s.pins.cmd.b with
    ⟨unbuilt, -⟩ | ⟨-, S, d, ok⟩
  · exact absurd unbuilt built
  · rw [ok] at port
    exact ⟨S, d, port⟩

end Sys2Proof.Machine
end

section
/-! The obligations of the exceptions' family (spec file 60), settled. -/

namespace Sys2Proof.Machine

/-- Settles O36: ILLEGAL is the answer exactly where `DECODE` fails, and the fields it reads are those of R80. -/
theorem illegalExactlyForTheseWords : Obligations.IllegalExactlyForTheseWords := fun s =>
  have illegal := execCommand_status_eq_illegal_iff s.build s.slots s.pins.cmd
  ⟨_, _, runPort_completesWith s, illegal, illegal.trans (exists_decode_eq_error_iff s.pins.cmd.word),
    fun h => (execCommand_of_status_ne_ok (by simp [h])).2⟩

/-- Settles O37: EMPTY is the answer exactly where the decoded command reads a slot that is not built. -/
theorem emptyExactlyForUnbuiltSlots : Obligations.EmptyExactlyForUnbuiltSlots := fun s =>
  have empty := execCommand_status_eq_empty_iff s.build s.slots s.pins.cmd
  ⟨_, _, runPort_completesWith s, empty.trans (decodes_readsUnbuilt_iff s.pins.cmd.word s.slots),
    fun h => (execCommand_of_status_ne_ok (by simp [h])).2⟩

/-- Settles O38: both errors of `EXEC` answer data 0 beside the slot file they were given. -/
theorem errorsChangeNoState : Obligations.ErrorsChangeNoState := fun s =>
  ⟨_, _, runPort_completesWith s, execCommand_of_status_ne_ok⟩

/-- Settles O39: whether a command ends in OK depends on its word and on the slot it reads, not on A or B. -/
theorem noDataOperandCausesAnError : Obligations.NoDataOperandCausesAnError := by
  intro s i hi valid a b
  have built : ¬ReadsUnbuilt s.slots i :=
    (not_readsUnbuilt_iff s.slots i).2 fun k hk => valid k ((slotRead_eq_some_iff i k).1 hk)
  exact runPort_completesWith_ok (s := withA (withB s b) a) hi built

/-- Settles O40: the failure of `DECODE` depends on the word alone, and its answer leaves any slot file as it is. -/
theorem illegalIsCheckedFirst : Obligations.IllegalIsCheckedFirst := fun s _ he S =>
  runPort_error (s := withSlots s S) he

end Sys2Proof.Machine
end

section
/-! SUPPORT. The ports at a reset edge and the command the host must hold after an edge (R89, R94), said once. -/

namespace Sys2Proof.Machine

/-! ## A reset edge -/

theorem cmdReady_of_reset {s : State} (hr : s.pins.rstN = false) : cmdReady s = false := by simp [cmdReady, hr]

theorem rspValid_of_reset {s : State} (hr : s.pins.rstN = false) : rspValid s = false := by simp [rspValid, hr]

theorem postReset_resetEdge (s : State) : PostReset (resetEdge s) := ⟨rfl, rfl, rfl, rfl, rfl⟩

theorem PostReset.slotValid_eq_false {s : State} (h : PostReset s) (k : Fin 4) : slotValid s.slots k = false := by
  rw [h.slots, slotValid_cleared]

/-- The post-reset queue is empty and MAX_INFLIGHT is at least 1, so reset's release is all that `cmd_ready` waits for. -/
theorem PostReset.cmdReady {s : State} (h : PostReset s) (released : s.pins.rstN = true) : cmdReady s = true :=
  (cmdReady_iff s).2 ⟨released, by rw [h.inflight]; exact Nat.succ_pos _⟩

/-! ## The command the host must hold -/

/-- What the host presents at an edge that accepts nothing is presented to an engine that is not ready. -/
theorem heldCommand_of_not_accepting {s : State} (ha : accepting s = false) :
    heldCommand s = if s.pins.cmdValid = true ∧ cmdReady s = false then some s.pins.cmd else none := by
  cases valid : s.pins.cmdValid with
  | false => simp [heldCommand, valid]
  | true =>
    have notReady : cmdReady s = false := by simpa [accepting, valid] using ha
    simp [heldCommand, valid, notReady]

/-- What an edge leaves for the host to hold: what it presented, unless the engine was ready for it (R94). -/
theorem step_waiting {s t : State} (h : step s = .next t) :
    t.waiting = if s.pins.cmdValid = true ∧ cmdReady s = false then some s.pins.cmd else none := by
  rcases step_cases h with ⟨hr, rfl⟩ | ⟨-, ha, rfl⟩ | ⟨-, ha, u, -, rfl⟩
  · exact heldCommand_of_not_accepting (by simp [accepting, cmdReady_of_reset hr])
  · exact heldCommand_of_not_accepting ha
  · have ready := ((accepting_iff s).1 ha).2
    simp [ready]

end Sys2Proof.Machine
end

section
/-! The obligations of the reset and hazards family (spec file 70), settled. -/

namespace Sys2Proof.Machine

/-- Settles O53: the held command is that of `step_waiting`, and the ports, the build and the reset mark are those of
`step_ports`, by whether the host's next inputs are listed. -/
theorem portsAdvanceAndBuildStays : Obligations.PortsAdvanceAndBuildStays := by
  intro s t h
  obtain ⟨pins, upcoming, build, seen⟩ := step_ports h
  refine ⟨step_waiting h, fun p ps listed => ?_, fun unlisted => ?_, build, seen⟩
  · rw [pins, upcoming, listed]
    exact ⟨rfl, rfl⟩
  · rw [pins, upcoming, unlisted]
    exact ⟨rfl, rfl⟩

/-- Settles O51: the edge answers the post-reset state, whose slots are not valid and whose queue has room. -/
theorem resetEdgeRule : Obligations.ResetEdgeRule := fun s hr =>
  have post := postReset_resetEdge s
  ⟨resetEdge s, step_reset hr, post, post.slotValid_eq_false, cmdReady_of_reset hr, rspValid_of_reset hr, post.cmdReady⟩

end Sys2Proof.Machine
end

section
/-! SUPPORT. A command on a slot that is not built (R81), and the three outcomes of an edge (R89, R91, R94), said once. -/

namespace Sys2Proof.Machine

/-! ## Slots that are not built -/

/-- A well-formed command that reads a slot answers (EMPTY, 0) where the slot is not built, and changes nothing else
(R81). -/
theorem exec_completesWith_empty {i : Instr} {k : SlotField} {s : State} (wf : i.wellFormed = true)
    (reads : slotRead i = some k) (unbuilt : s.slots[slotIndex k] = none) :
    CompletesWith (exec i s) s s.slots ⟨.empty, 0⟩ := by
  have completes := exec_completesWith i s
  obtain ⟨f, hf⟩ := execDecoded_of_slotRead_some wf reads s.build s.slots s.pins.cmd.a s.pins.cmd.b
  rwa [hf, execOnSlot_of_none unbuilt f] at completes

/-! ## The stops of an edge -/

/-- The host breaks the handshake where it had a command to hold and does not present exactly that one (R94). -/
theorem handshakeBroken_iff (s : State) :
    handshakeBroken s = true ↔ ∃ c, s.waiting = some c ∧ ¬(s.pins.cmdValid = true ∧ s.pins.cmd = c) := by
  cases h : s.waiting with
  | none => simp [handshakeBroken, h]
  | some c => simp [handshakeBroken, h, imp_iff_not_or]

theorem step_beforeFirstReset {s : State} (released : s.pins.rstN = true) (unseen : s.resetSeen = false) :
    step s = .fault .beforeFirstReset := by
  simp [step, clockEdge, released, unseen]

theorem step_handshakeBroken {s : State} (released : s.pins.rstN = true) (seen : s.resetSeen = true)
    (broken : handshakeBroken s = true) : step s = .refused .handshakeBroken := by
  simp [step, clockEdge, released, seen, broken]

/-- A running edge answers a next state: no command stops the machine. -/
theorem Running.exists_step_next {s : State} (run : Running s) : ∃ t, step s = .next t := by
  cases ha : Machine.accepting s with
  | false => exact ⟨_, step_idle run ha⟩
  | true => exact ⟨_, step_eq_of_accepting run ha⟩

/-- The outcome of an edge, by reset, by whether a reset was seen, and by the handshake. -/
theorem step_outcome (s : State) :
    (s.pins.rstN = true ∧ s.resetSeen = false ∧ step s = .fault .beforeFirstReset) ∨
      (s.pins.rstN = true ∧ s.resetSeen = true ∧ handshakeBroken s = true ∧ step s = .refused .handshakeBroken) ∨
      ((s.pins.rstN = false ∨ Running s) ∧ ∃ t, step s = .next t) := by
  cases released : s.pins.rstN with
  | false => exact .inr (.inr ⟨.inl rfl, _, step_reset released⟩)
  | true =>
    cases seen : s.resetSeen with
    | false => exact .inl ⟨rfl, rfl, step_beforeFirstReset released seen⟩
    | true =>
      cases broken : handshakeBroken s with
      | true => exact .inr (.inl ⟨rfl, rfl, rfl, step_handshakeBroken released seen broken⟩)
      | false =>
        have run : Running s := ⟨released, seen, broken⟩
        exact .inr (.inr ⟨.inr run, run.exists_step_next⟩)

theorem step_fault_iff (s : State) :
    (∃ f, step s = .fault f) ↔ s.pins.rstN = true ∧ s.resetSeen = false := by
  rcases step_outcome s with ⟨released, unseen, h⟩ | ⟨-, seen, -, h⟩ | ⟨reset | run, t, h⟩
  · exact iff_of_true ⟨_, h⟩ ⟨released, unseen⟩
  · simp [h, seen]
  · simp [h, reset]
  · simp [h, run.resetSeen]

theorem step_refused_iff (s : State) :
    (∃ r, step s = .refused r) ↔ s.pins.rstN = true ∧ s.resetSeen = true ∧ handshakeBroken s = true := by
  rcases step_outcome s with ⟨-, unseen, h⟩ | ⟨released, seen, broken, h⟩ | ⟨reset | run, t, h⟩
  · simp [h, unseen]
  · exact iff_of_true ⟨_, h⟩ ⟨released, seen, broken⟩
  · simp [h, reset]
  · simp [h, run.handshake]

theorem refusal_of_step {s : State} {r : Refusal} (h : step s = .refused r) : r = .handshakeBroken := by
  rcases step_outcome s with ⟨-, -, h'⟩ | ⟨-, -, -, h'⟩ | ⟨-, t, h'⟩
  · cases h'.symm.trans h
  · exact (Host.Outcome.refused.inj (h'.symm.trans h)).symm
  · cases h'.symm.trans h

end Sys2Proof.Machine
end

section
/-! The obligations that cross the families, settled: the round trip of the encoding, the errors of the slot commands, the
queue around an edge, the stops of a step, and the invariant at reset. -/

namespace Sys2Proof.Machine

/-- Settles O1: `encode` puts every field in its place, and the case table of `DECODE` reads them back. -/
theorem decodeUndoesEncode : Obligations.DecodeUndoesEncode := fun _ wf => decode_encode wf

/-- Settles O2: a word is its four fields, and a row of the case table fixes those an instruction does not hold. -/
theorem decodedWordIsItsEncoding : Obligations.DecodedWordIsItsEncoding := fun _ _ h => encode_of_decode h

/-- Settles O28: the three commands read the slot, and the index 7 is refused before the slot is looked at. -/
theorem slotCommandsReportErrors : Obligations.SlotCommandsReportErrors := by
  intro s k
  refine ⟨fun unbuilt => ⟨?_, ?_, fun j hj => ?_⟩, exec_completesWith (.ppprd k 7) s⟩
  · exact exec_completesWith_empty rfl rfl unbuilt
  · exact exec_completesWith_empty rfl rfl unbuilt
  · have wf : (Instr.ppprd k j).wellFormed = true := bne_iff_ne.2 hj
    exact exec_completesWith_empty wf rfl unbuilt

/-- Settles O47: the edge serves the queue, whose head is delivered exactly where it is due and taken, and appends the
command that joins. -/
theorem queueMovesInOrder : Obligations.QueueMovesInOrder := by
  intro s t run h
  obtain ⟨new, one, latency, inflight, delivered⟩ := step_queue run h
  rw [serveQueue_inflight] at inflight
  rw [serveQueue_delivered] at delivered
  refine ⟨new, one, latency, fun taken e q hq due => ?_, fun notDue => ?_⟩
  · have now : deliveredNow s = [e.rsp] := deliveredNow_due run.released taken hq due
    rw [now] at delivered inflight
    rw [hq] at inflight
    exact ⟨delivered, inflight⟩
  · have now : deliveredNow s = [] := deliveredNow_not_due notDue
    rw [now] at delivered inflight
    exact ⟨by simpa using delivered, inflight⟩

/-- Settles O52: the conditions of the three outcomes exclude each other, and the one refusal is the handshake's. -/
theorem stepStopsOnlyHere : Obligations.StepStopsOnlyHere := fun s =>
  have refused := (step_refused_iff s).trans (and_congr_right' (and_congr_right' (handshakeBroken_iff s)))
  ⟨step_fault_iff s, refused, fun _ h => refusal_of_step h⟩

/-- Settles O4: nine words, evaluated. -/
theorem sampleWordsDecode : Obligations.SampleWordsDecode := by
  unfold Obligations.SampleWordsDecode
  decide

/-- Settles O55: the reset state is a post-reset state, whose run is that of no command. -/
theorem resetMeetsInvariant : Obligations.ResetMeetsInvariant :=
  have ⟨post, _⟩ := resetStateIsPostReset
  post.inv

end Sys2Proof.Machine
end
